-- ==== Sys2Proof/Word.lean ====
section
/-! DEFINITION. The word types of the LW-9400 and their plainest arithmetic. -/
namespace Sys2Proof

abbrev Byte := BitVec 8
/-- A scalar register, a register word of a page, a W-wide quantity of 32 bits. -/
abbrev Word := BitVec 32
/-- An instruction word or a 64-bit register. -/
abbrev DWord := BitVec 64
/-- One 32-byte scratchpad granule (R44); byte k holds bits [8k+7:8k] (R8). -/
abbrev Granule := BitVec 256

/-- Saturating addition of a 32-bit counter (R62). -/
def satAdd32 (a : Word) (n : Nat) : Word :=
  if a.toNat + n < 2 ^ 32 then BitVec.ofNat 32 (a.toNat + n) else 0xFFFFFFFF

/-- Saturating addition of a 64-bit counter (R293). -/
def satAdd64 (a : DWord) (n : Nat) : DWord :=
  if a.toNat + n < 2 ^ 64 then BitVec.ofNat 64 (a.toNat + n) else BitVec.allOnes 64

/-- ⌈a / b⌉. -/
def cdiv (a b : Nat) : Nat := (a + b - 1) / b

/-- Signed 32-bit comparison of two counters by the sign of their difference (R213). -/
def serialGt (a b : Word) : Bool := decide (0 < (a - b).toInt)

end Sys2Proof
end

