-- ==== Sys2Proof/Syntax.lean ====
section
/-! DEFINITION. The commands of the LW-9400: one constructor of `Instr` for each row of spec/opcode_table.json,
with the operands the row's rule names. The table gives the rows no bits, so the operands are the model's (log entry 2). -/
namespace Sys2Proof

/-! ### Places -/

/-- A logical tile (R112): column 0–335, row 0–323. -/
structure TileAddr where
  col : Fin 336
  row : Fin 324
  deriving DecidableEq, Repr, Inhabited

/-- A request row (R259). -/
abbrev RowId := Fin 8192
/-- A partition (R5). -/
abbrev PartId := Fin 16
/-- A window: 0 the physical function, n virtual function n (R391). -/
abbrev WinId := Fin 128
/-- A region, gx × 12 + gy (R15). -/
abbrev RegionId := Fin 144
/-- A link port (R19). -/
abbrev PortId := Fin 48
/-- A rim stack (Table 1.1). -/
abbrev StackId := Fin 24

/-- The channels of the mesh (Table 7.2). -/
inductive Chan where
  | sched
  | mgmt
  | flow
  deriving DecidableEq, Repr, Inhabited

/-- The ports of a router (R51). -/
inductive Port where
  | north
  | east
  | south
  | west
  | loc
  deriving DecidableEq, Repr, Inhabited

/-! ### Tile instruction words (Tables 4.2 and 4.3). All 56 bits below the opcode are kept, reserved ones too (R109). -/

/-- Format C. -/
structure FmtC where
  sfx : BitVec 4
  sd  : BitVec 5
  sa  : BitVec 5
  sb  : BitVec 5
  i   : Bool
  res : BitVec 4
  imm : Word
  deriving DecidableEq, Repr, Inhabited

/-- Format A. -/
structure FmtA where
  sfx : BitVec 4
  ad  : BitVec 4
  as_ : BitVec 4
  at_ : BitVec 4
  sx  : BitVec 5
  sy  : BitVec 5
  idx : BitVec 6
  imm : BitVec 24
  deriving DecidableEq, Repr, Inhabited

/-! ### What an access meets at the scratchpad banks and in its code words -/

/-- The banks at which this access, or one that it refused, waited in a clk not yet counted (R45, R206), and the words of the tile's
column, scratchpad and instruction store that were corrected on the way (R33, R44, R46). -/
structure BankNote where
  waits : List (Fin 16) := []
  corr  : Nat := 0
  deriving DecidableEq, Repr, Inhabited

/-- An access that completes at a tile, with what it met on its way. -/
structure Visit where
  tile : TileAddr
  note : BankNote := {}
  deriving DecidableEq, Repr, Inhabited

/-- A forced grant at a bank (R57), and whether another access was refused there in its clk, which the bank's conflict counter counts
(R206). -/
structure BankGrant where
  bank    : Fin 16
  refused : Bool := false
  deriving DecidableEq, Repr, Inhabited

/-- A read that is tried again: a P4 or P5 reader's (`low`, Table 2.8), and whether the retry is clean (R36). -/
structure Retry where
  low   : Bool
  clean : Bool
  deriving DecidableEq, Repr, Inhabited

/-- A column: a logical tile's, or with `spare` that of the tile of its physical column and region that no logical position uses (R17). -/
structure ColumnOf where
  tile  : TileAddr
  spare : Bool := false
  deriving DecidableEq, Repr, Inhabited

/-- A read of a register: its offset in the window; `wide`: one 64-bit access reads both words (R10). -/
structure RegRead where
  off  : BitVec 28
  wide : Bool := false
  deriving DecidableEq, Repr, Inhabited

/-- What the receiver finds of a cell beside its bits: `codeword`: it lay in a codeword that was not decoded (R386); `again`: of a spoiled cell
whose header cannot be read, that it is a retransmission (log entry 28); `planned`: the port's peer is in the hall's plan, which no register holds
(R379). -/
structure CellNote where
  codeword : Bool := false
  again    : Bool := false
  planned  : Bool := true
  deriving DecidableEq, Repr, Inhabited

/-- WARM as a window writes it; `mapReadable`: the field fault map can be read in flash (R464). -/
structure WarmReq where
  win         : WinId
  mapReadable : Bool := true
  deriving DecidableEq, Repr, Inhabited

/-- SAVE as a window writes it, and whether the write of flash succeeds (R498, R499). -/
structure SaveReq where
  win     : WinId
  flashOk : Bool := true
  deriving DecidableEq, Repr, Inhabited

/-- READ as a window writes it, and the 32-bit words of its data that are found uncorrectable (R500). -/
structure ReadReq where
  win : WinId
  bad : List (Fin 64) := []
  deriving DecidableEq, Repr, Inhabited

/-- A write of a function's configuration space: Bus Master Enable and the power state (Table 11.9, R393). -/
structure ConfigWrite where
  fn        : WinId
  busMaster : Bool := true
  d3hot     : Bool := false
  deriving DecidableEq, Repr, Inhabited

/-- A write of one entry of a function's MSI-X table in its BAR2: message address, data and the mask bit (R391). -/
structure VectorWrite where
  vec  : Fin 64
  addr : DWord := 0
  data : Word := 0
  mask : Bool := false
  deriving DecidableEq, Repr, Inhabited

/-! ### Build images (R244–R249) -/

/-- Table 7.4. -/
structure ImageHeader where
  magic        : Word
  format       : BitVec 16
  imageLen     : Nat
  gx0          : Nat
  gy0          : Nat
  width        : Nat
  height       : Nat
  mode         : Nat
  arith        : Nat
  role         : Nat
  refreshDecl  : Nat
  stepInterval : Nat
  entryTile    : Word
  gateTile     : Word
  manifestDigest : BitVec 384
  toolVersion  : DWord
  buildSerial  : DWord
  reservedZero : Bool
  deriving DecidableEq, Repr, Inhabited

/-- Table 7.5. -/
structure SecEntry where
  kind   : Nat
  index  : Nat
  offset : Nat
  length : Nat
  reservedZero : Bool
  deriving DecidableEq, Repr, Inhabited

/-- TILE_PROGRAMS record (Table 7.6). -/
structure ProgRec where
  tile  : Word
  words : List DWord
  deriving DecidableEq, Repr, Inhabited

/-- ISSUE_PLANS record (Table 7.6). -/
structure PlanRec where
  tile   : Word
  delays : List (BitVec 16)
  deriving DecidableEq, Repr, Inhabited

/-- TILE_INIT record (Table 7.7). -/
structure InitRec where
  tile      : Word
  credit    : List Byte
  barMember : Word
  deriving DecidableEq, Repr, Inhabited

/-- WEIGHT_MAP record of kind 0x01 (Table 10.5). -/
structure WeightRec where
  packing : Nat
  area    : Nat
  shard   : Nat
  offset  : Nat
  tile    : Word
  line    : Nat
  count   : Nat
  deriving DecidableEq, Repr, Inhabited

/-- WEIGHT_MAP record of kind 0x02 (Table 10.5). -/
structure AdapterLayout where
  groups  : Nat
  stride  : Nat
  packing : Nat
  deriving DecidableEq, Repr, Inhabited

/-- WEIGHT_MAP record of kind 0x03 (Table 10.5). -/
structure AdapterRec where
  group  : Nat
  shard  : Nat
  offset : Nat
  tile   : Word
  line   : Nat
  count  : Nat
  deriving DecidableEq, Repr, Inhabited

/-- COLUMN_MAP record (Table 7.6); `tile = 0xFFFF_FFFF` means every tile. -/
structure AreaRec where
  tile  : Word
  kind  : Nat
  first : Nat
  count : Nat
  deriving DecidableEq, Repr, Inhabited

/-- A rectangle of store tiles (R329). -/
structure StoreRect where
  col : Nat
  row : Nat
  w   : Nat
  h   : Nat
  deriving DecidableEq, Repr, Inhabited

/-- SERVICE_MAP records (Table 7.9, Table 9.3, R329). -/
inductive ServiceRec where
  | footprint (layer : Nat) (control : Word) (plat : List Word) (scan : List Word)
  | embedding (tiles : List Word)
  | head (tiles : List Word) (sampling : Word)
  | draftLink (side : Nat) (hall : BitVec 16) (part : Nat) (slots : List (Nat × Nat))
  | pageLayout (slots k8 slotBase slotStride : Nat)
  | store (rects : List StoreRect)
  deriving DecidableEq, Repr, Inhabited

/-- TIMETABLE slot record (Table 11.7). -/
structure SlotRec where
  port : Nat
  slot : Nat
  deriving DecidableEq, Repr, Inhabited

/-- TIMETABLE route record (Table 11.7). -/
structure RouteRec where
  index    : Nat
  destHall : BitVec 16
  destPart : Nat
  flow     : Bool
  port     : Nat
  granule  : Nat
  tile     : Word
  deriving DecidableEq, Repr, Inhabited

/-- A route table triple (R231): router region, destination region, code of Table 7.1. -/
structure RouteTriple where
  router : Nat
  dest   : Nat
  code   : BitVec 3
  deriving DecidableEq, Repr, Inhabited

/-- The WEIGHT_MAP section. -/
structure WeightMap where
  lines    : List WeightRec
  layout   : Option AdapterLayout
  adapters : List AdapterRec
  deriving DecidableEq, Repr, Inhabited

/-- DIVERSION section (Table 7.10) for the loss of `region`. -/
structure DivPlan where
  region       : Nat
  programs     : List ProgRec
  plans        : List PlanRec
  inits        : List InitRec
  weights      : WeightMap
  routes       : List RouteTriple
  service      : List ServiceRec
  entryTile    : Option Word
  gateTile     : Option Word
  stepInterval : Nat
  deriving DecidableEq, Repr, Inhabited

/-- A build image as the module reads it from its bytes (R244). `sigValid` is what ECDSA gives on them; `groups` is the model's
key/value group count G, which R299 uses and no structure carries (log entry 5). -/
structure ImageData where
  header    : ImageHeader
  secs      : List SecEntry
  programs  : List ProgRec
  plans     : List PlanRec
  inits     : List InitRec
  weights   : WeightMap
  areas     : List AreaRec
  service   : List ServiceRec
  slots     : List SlotRec
  outRoutes : List RouteRec
  routes    : List RouteTriple
  divs      : List DivPlan
  groups    : Nat
  keyId     : BitVec 128
  sigValid  : Bool
  digest    : BitVec 384
  deriving DecidableEq, Repr, Inhabited

/-- A build image as it lies in the host's memory: its bytes, and the contents that the spec gives no byte layout (of the SERVICE_MAP records of
kinds 1 to 4, in order, of ROUTES and of DIVERSION; log entries 5, 108). -/
structure ImageFile where
  bytes    : List Byte
  service  : List ServiceRec
  routes   : List RouteTriple
  divs     : List DivPlan
  groups   : Nat
  deriving DecidableEq, Repr, Inhabited

/-! ### Manifests (Tables 10.1–10.3) -/

/-- A signed manifest as it lies in the host's memory, and what ECDSA gives on its signature (log entry 4). -/
structure ManifestFile where
  bytes    : List Byte
  sigValid : Bool
  deriving DecidableEq, Repr, Inhabited

/-- Table 10.3: kind 1 host, 2 hall module, 3 this module's masters; 0 unused. -/
structure ShardSource where
  kind : Nat
  hall : BitVec 16
  deriving DecidableEq, Repr, Inhabited

/-- Table 10.2. -/
structure ShardEntry where
  index   : Nat
  length  : Nat
  digest  : BitVec 384
  sources : List ShardSource
  deriving DecidableEq, Repr, Inhabited

/-- A signed manifest (R333). `digest` is SHA-384 over the whole manifest. -/
structure ManifestData where
  magic    : Word
  format   : BitVec 16
  kind     : Nat
  vocab    : Nat
  layers   : Nat
  base     : BitVec 384
  serial   : DWord
  shards   : List ShardEntry
  reservedZero : Bool
  keyId    : BitVec 128
  sigValid : Bool
  digest   : BitVec 384
  deriving DecidableEq, Repr, Inhabited

/-! ### Messages -/

/-- Speculative message (Table 8.15). -/
structure SpecMsg where
  k        : Nat
  mainRow  : Nat
  draftRow : Nat
  b        : Nat
  tokens   : List Word
  deriving DecidableEq, Repr, Inhabited

/-- One page line with its side bytes 0–63, as a ship message carries it (R325). -/
structure PageLine where
  data : BitVec 8192
  side : BitVec 512
  deriving DecidableEq, Repr, Inhabited

/-- Ship message: the header of Table 9.7 and the page's lines (R325). -/
structure ShipMsg where
  kind      : Nat
  fmt       : Nat
  destRow   : Nat
  k         : Nat
  layer     : Nat
  fill      : Nat
  destPart  : Nat
  srcRow    : Nat
  srcHall   : BitVec 16
  reqSeed   : Word
  promptLen : Nat
  model     : BitVec 384
  adapter   : BitVec 384
  lines     : List PageLine
  deriving DecidableEq, Repr, Inhabited

/-- Ship acknowledgement (R325). -/
structure ShipAck where
  row    : Nat
  k      : Nat
  layer  : Nat
  status : Nat
  deriving DecidableEq, Repr, Inhabited

/-- Link cell (Table 11.3), its check bytes left to the receiver's verdict. -/
structure Cell where
  destHall : BitVec 16
  kind     : BitVec 4
  destPart : BitVec 4
  flow     : Bool
  last     : Bool
  retx     : Bool
  target   : Word
  payload  : BitVec 512
  deriving DecidableEq, Repr, Inhabited

/-- A time cell as it arrives (R369, R370), times in 2^−16 ns: t1, the peer's transmit time of the slot 0 marker; `age`, the time from that
marker's first bit at the receiver to now; the marker of this module that the peer heard last, by its frame bits, with its receive time
t4, none before the first. -/
structure TimeMsg where
  t1    : Int
  age   : Int
  back  : Option (BitVec 16 × Int)
  depth : Nat
  hall  : BitVec 16
  port  : Nat
  deriving DecidableEq, Repr, Inhabited

/-- The access of the named tile that met an uncorrectable word, by the queue whose front it is: it delivers nothing (R44, R400). None where
a read outside those queues found the word; a column read's word is READ_RETRY's. -/
inductive FoundBy where
  | none
  | lineWrite
  | rowEngine
  | vectorUnit
  | sequencer
  | sendQueue
  | mgmtQueue
  | descriptors
  | mailbox
  | fifo (p : Port) (c : Chan)
  | skid
  | deliver (c : Chan)
  /-- a word of a master in the rim stacks, by the master's digest -/
  | master (digest : BitVec 384)
  deriving DecidableEq, Repr, Inhabited

/-- A clock feed of a region that stops: the live one, or the one that is kept ready (R416). -/
structure FeedStop where
  region  : RegionId
  standby : Bool := false
  deriving DecidableEq, Repr, Inhabited

/-- An error event as its unit raises it (Table 12.3). -/
structure ErrEvent where
  cls    : Byte
  part   : Option PartId
  region : Option RegionId
  tile   : Option TileAddr
  detail : Byte
  loc    : Word
  found  : FoundBy := .none
  deriving DecidableEq, Repr, Inhabited

/-- One region's sensors in one millisecond (Table 13.4), before user offsets: 1/16 °C, and the 48 V current in mA. -/
structure RegionReading where
  ja      : Int
  jb      : Int
  tierL   : Int
  tierU   : Int
  current : Int
  deriving DecidableEq, Repr, Inhabited

/-- What the governor reads at one whole millisecond (R435): regions and stacks by index, the busbar voltage in mV, 1 ms and 1 s
busbar power and the rim's draw in W, the two inlets and the two outlets in 1/16 °C and the two flows in 0.01 L/min. -/
structure GovReading where
  regions : List (RegionId × RegionReading)
  stackTemps  : List (StackId × Int)
  volts   : Nat
  p1ms    : Nat
  p1s     : Nat
  rim     : Nat
  inletA  : Int
  inletB  : Int
  outletA : Int
  outletB : Int
  flowA   : Int
  flowB   : Int
  deriving DecidableEq, Repr, Inhabited

/-- Terms of Table 13.10 as measured for one unit, in permille; the rim has a sixth. -/
structure WearTerms where
  logic     : Nat
  timing    : Nat
  retention : Nat
  eye       : Nat
  deriving DecidableEq, Repr, Inhabited

/-- A failed unit found by a bring-up stage (Tables 14.2, 14.3). -/
inductive TestFail where
  | tile (pcol prow : Fin 336) (cause : Byte)
  | region (r : RegionId) (cause : Byte)
  deriving DecidableEq, Repr, Inhabited

/-- A firmware image: its security version, whether it verifies under the root key (R465), and its digest. -/
structure FwImage where
  verifies : Bool
  secver   : Byte
  digest   : BitVec 384
  deriving DecidableEq, Repr, Inhabited

/-- Enrolment command: its 256 bytes (Table 14.5), and whether the owner's signature over bytes 0–159 verifies. -/
structure EnrolCmd where
  bytes      : List Byte
  ownerSigOk : Bool
  deriving DecidableEq, Repr, Inhabited

/-- Why the host port went down (R393). -/
inductive HostLoss where
  | conventionalReset
  | linkLoss
  deriving DecidableEq, Repr, Inhabited

/-- Which end of Table 13.1 a busbar voltage fault is. -/
inductive VoltFault where
  | under
  | beyond
  deriving DecidableEq, Repr, Inhabited

/-! ### The commands -/

/-- One constructor for each row of spec/opcode_table.json, in its order. -/
inductive Instr where
  /-- NOP (R125): The tile issues an instruction that does nothing. -/
  | nop (t : TileAddr) (f : FmtC)
  /-- JMP (R125): Unconditional jump to imm[10:0], which may pop loop levels. -/
  | jmp (t : TileAddr) (f : FmtC)
  /-- BRC (R125): Conditional branch on the sign or zero of a scalar register. -/
  | brc (t : TileAddr) (f : FmtC)
  /-- CALL (R125): Pushes the return address and jumps, faulting on overflow of the return stack. -/
  | call (t : TileAddr) (f : FmtC)
  /-- RET (R125): Pops the return stack and jumps, faulting when the stack is empty. -/
  | ret (t : TileAddr) (f : FmtC)
  /-- LOOP (R127): Pushes a loop level over pc+1 to end, or skips the body when the count is zero. -/
  | loop (t : TileAddr) (f : FmtC)
  /-- HALT (R128): Waits for an empty scoreboard and injection, then stops the sequencer. -/
  | halt (t : TileAddr) (f : FmtC)
  /-- STEPWAIT (R129): Takes the oldest step notice from the mailbox into a scalar and two granules. -/
  | stepwait (t : TileAddr) (f : FmtA)
  /-- SETS (R131): Sets a scalar register, or an unchecked range register, from the immediate. -/
  | sets (t : TileAddr) (f : FmtC)
  /-- ADDS (R131): Scalar addition modulo 2^32. -/
  | adds (t : TileAddr) (f : FmtC)
  /-- SUBS (R131): Scalar subtraction modulo 2^32. -/
  | subs (t : TileAddr) (f : FmtC)
  /-- ANDS (R131): Scalar bitwise and. -/
  | ands (t : TileAddr) (f : FmtC)
  /-- ORS (R131): Scalar bitwise or. -/
  | ors (t : TileAddr) (f : FmtC)
  /-- SHLS (R131): Scalar shift left, logical right or arithmetic right. -/
  | shls (t : TileAddr) (f : FmtC)
  /-- CMPS (R131): Scalar comparison that writes 1 or 0. -/
  | cmps (t : TileAddr) (f : FmtC)
  /-- MOVS (R132): Moves values between scalar and range registers, or steps a range base. -/
  | movs (t : TileAddr) (f : FmtC)
  /-- LDC (R133): Loads a scalar from the tile control space or from a scratchpad word. -/
  | ldc (t : TileAddr) (f : FmtC)
  /-- STC (R133): Stores a scalar to the tile control space or to a scratchpad word. -/
  | stc (t : TileAddr) (f : FmtC)
  /-- WAITA (R134): Stalls until an arrival counter reaches a threshold. -/
  | waita (t : TileAddr) (f : FmtC)
  /-- CLRA (R134): Clears an arrival counter, faulting when its window is open. -/
  | clra (t : TileAddr) (f : FmtC)
  /-- WAKE (R136): Sends a management flit that latches a wake wire at the target tile. -/
  | wake (t : TileAddr) (f : FmtC)
  /-- SLEEP (R137): Gates the tile's clocks until a masked wake wire latches or the limit passes. -/
  | sleep (t : TileAddr) (f : FmtC)
  /-- SPIN (R137): Busy-waits until a masked wake wire latches or the limit passes. -/
  | spin (t : TileAddr) (f : FmtC)
  /-- BARA (R140): Flips the barrier sense and signals arrival into the barrier tree. -/
  | bara (t : TileAddr) (f : FmtC)
  /-- BARW (R140): Waits until the barrier's release sense matches the local sense. -/
  | barw (t : TileAddr) (f : FmtC)
  /-- HOLDREQ (R141): Raises a partition hold from this tile for n clk. -/
  | holdreq (t : TileAddr) (f : FmtC)
  /-- FENCE (R142): Stalls until no scoreboard entry of the selected classes remains. -/
  | fence (t : TileAddr) (f : FmtC)
  /-- DLOAD (R143): Copies column lines, with side fields if asked, into the scratchpad. -/
  | dload (t : TileAddr) (f : FmtA)
  /-- DSTORE (R143): Copies scratchpad granules into column lines. -/
  | dstore (t : TileAddr) (f : FmtA)
  /-- DLATCH (R145): Reads one column line into the row engine's weight latch. -/
  | dlatch (t : TileAddr) (f : FmtA)
  /-- SEND (R146): Queues granules for a remote window, or a step notice with .STEP, taking a credit unless .NC. -/
  | send (t : TileAddr) (f : FmtA)
  /-- WIN (R149): Opens or, with .X, closes a window and its arrival counter. -/
  | win (t : TileAddr) (f : FmtA)
  /-- CRED (R151): Sends credits to a producer, re-arming a window first with .R. -/
  | cred (t : TileAddr) (f : FmtA)
  /-- COPY (R152): Copies one scratchpad range to another through the vector unit. -/
  | copy (t : TileAddr) (f : FmtA)
  /-- DESC (R187): Sends page descriptors to the descriptor queue of a tile. -/
  | desc (t : TileAddr) (f : FmtA)
  /-- TAKE (R189): Removes the oldest descriptor into a granule and a scalar. -/
  | take (t : TileAddr) (f : FmtA)
  /-- PLAT (R191): Quantises one position's keys or values into a Platform buffer row. -/
  | plat (t : TileAddr) (f : FmtA)
  /-- FLUSHP (R192): Writes a Platform buffer to column lines at P2, with .N sending a page-full notice. -/
  | flushp (t : TileAddr) (f : FmtA)
  /-- MATV (R163): Streams weight lines against one activation row into long accumulators. -/
  | matv (t : TileAddr) (f : FmtA)
  /-- MATM (R163): Applies each weight line through the latch to up to 8 activation rows. -/
  | matm (t : TileAddr) (f : FmtA)
  /-- ACCZ (R173): Zeroes accumulators and their flags. -/
  | accz (t : TileAddr) (f : FmtA)
  /-- ACCOUT (R174): Reads accumulators out, rounded or as raw images, optionally zeroing them. -/
  | accout (t : TileAddr) (f : FmtA)
  /-- KDOT (R169): Scores query rows against key lines exactly. -/
  | kdot (t : TileAddr) (f : FmtA)
  /-- VACC (R170): Weights value lines by per-position probabilities into accumulators. -/
  | vacc (t : TileAddr) (f : FmtA)
  /-- ADAPT (R167): Adds one activation row's low-rank adapter contribution from a slot. -/
  | adapt (t : TileAddr) (f : FmtA)
  /-- QACT (R177): Quantises W16 or F32 values into activation blocks, choosing each block's form. -/
  | qact (t : TileAddr) (f : FmtA)
  /-- CVT (R178): Converts elements between formats, rounding once where not exact. -/
  | cvt (t : TileAddr) (f : FmtA)
  /-- VADD (R179): Lane-wise addition. -/
  | vadd (t : TileAddr) (f : FmtA)
  /-- VSUB (R179): Lane-wise subtraction. -/
  | vsub (t : TileAddr) (f : FmtA)
  /-- VMUL (R179): Lane-wise multiplication. -/
  | vmul (t : TileAddr) (f : FmtA)
  /-- VFMA (R179): Lane-wise fused multiply-add with one rounding. -/
  | vfma (t : TileAddr) (f : FmtA)
  /-- VMAX (R179): Lane-wise maximum, or with .R a reduction to one element. -/
  | vmax (t : TileAddr) (f : FmtA)
  /-- VSEL (R179): Lane-wise select, or with .M a comparison mask. -/
  | vsel (t : TileAddr) (f : FmtA)
  /-- VEXP (R181): Correctly rounded exponential. -/
  | vexp (t : TileAddr) (f : FmtA)
  /-- VRCP (R181): Correctly rounded reciprocal. -/
  | vrcp (t : TileAddr) (f : FmtA)
  /-- VRSQ (R181): Correctly rounded reciprocal square root. -/
  | vrsq (t : TileAddr) (f : FmtA)
  /-- VSUMX (R182): Adds values or raw images exactly into accumulators. -/
  | vsumx (t : TileAddr) (f : FmtA)
  /-- SMAX (R183): Writes the unnormalised softmax weights of a score vector. -/
  | smax (t : TileAddr) (f : FmtA)
  /-- TOPK (R184): Merges values or lists into the k best candidates. -/
  | topk (t : TileAddr) (f : FmtA)
  /-- SAMPLE (R185): Selects a token from a candidate list, sending a token notice with .OUT. -/
  | sample (t : TileAddr) (f : FmtA)
  /-- ISSUE_DUE (R236): In exact mode, the schedule clock reaches an instruction's due value. -/
  | issueDue (t : TileAddr)
  /-- COLUMN_READ_LINE (R35): A column read line completes its 38 clk and reaches its consumer. `low`: its reader is a P4 or P5
  activity (Table 2.8). -/
  | columnReadLine (v : Visit) (low : Bool)
  /-- READ_RETRY (R36): A line with an uncorrectable word is re-read once, and a second failure faults the tile. -/
  | readRetry (t : TileAddr) (r : Retry)
  /-- COLUMN_WRITE_LINE (R56): A line write completes its 4 clk at the tier ports. -/
  | columnWriteLine (v : Visit)
  /-- FORCED_GRANT (R56): A port or bank that has starved a lower level for 1,024 clk forces one grant. -/
  | forcedGrant (t : TileAddr) (bank : Option BankGrant)
  /-- REFRESH_DUE (R37): A column's refresh burst falls due at its phase of the region's refresh counter. -/
  | refreshDue (c : ColumnOf)
  /-- REFRESH_REPAY (R38): An owed burst starts in the first clk with no read or write pending. -/
  | refreshRepay (c : ColumnOf)
  /-- REFRESH_BURST_DONE (R37): A refresh burst of at most 90 clk ends and the tier ports resume. -/
  | refreshBurstDone (c : ColumnOf)
  /-- ROW_ENGINE_LINE (R41): A line passes the row-engine pipeline and its contribution resolves in the accumulators. -/
  | rowEngineLine (v : Visit)
  /-- VECTOR_GROUP_DONE (R161): A vector instruction's group completes, and the last group releases its entry. -/
  | vectorGroupDone (v : Visit)
  /-- SEND_INJECT (R147): The send queue injects a SEND's or DESC's head and payload flits in issue order. -/
  | sendInject (v : Visit)
  /-- MGMT_INJECT (R504): A WAKE, CRED or notice flit begins management injection. -/
  | mgmtInject (t : TileAddr)
  /-- FLIT_HOP (R225): A router routes and arbitrates a flit onward, to the skid buffer or toward delivery. -/
  | flitHop (t : TileAddr) (out : Port)
  /-- SEND_HEAD_ARRIVAL (R148): A head flit is tested against the target's open windows. -/
  | sendHeadArrival (t : TileAddr) (c : Chan)
  /-- PAYLOAD_DELIVERY (R200): A payload flit is written into the scratchpad and its bytes are added to the window counter. -/
  | payloadDelivery (v : Visit) (c : Chan)
  /-- CREDIT_DELIVERY (R151): A credit flit adds credits to CREDIT_c at the producer. -/
  | creditDelivery (t : TileAddr)
  /-- WAKE_DELIVERY (R135): A WAKE flit latches its wire at the target tile. -/
  | wakeDelivery (t : TileAddr)
  /-- STEP_NOTICE_DELIVERY (R129): A step notice enters the step mailbox and latches wake wire 7. -/
  | stepNoticeDelivery (t : TileAddr)
  /-- DESCRIPTOR_DELIVERY (R188): Descriptors enter the descriptor queue once it has room. -/
  | descriptorDelivery (t : TileAddr) (c : Chan)
  /-- OUTBOUND_SEND (R382): A SEND to the rim gate's outbound range becomes link cells through a route entry. -/
  | outboundSend (p : PartId)
  /-- HOLD_ROOT_MAXIMUM (R216): A new lateness reaches the hold root, which takes the maximum and broadcasts it. -/
  | holdRootMaximum (p : PartId) (t : TileAddr) (l : Word)
  /-- HOLD_MAX_ARRIVAL (R213): The broadcast maximum reaches a tile, which freezes while its lateness is below it. -/
  | holdMaxArrival (t : TileAddr) (m : Word)
  /-- HOLDREQ_END (R141): The n clk of a HOLDREQ's hold run out. -/
  | holdreqEnd (t : TileAddr)
  /-- BARRIER_ROOT_UPDATE (R211): The agreed sense of all members reaches the root, which broadcasts the release. -/
  | barrierRootUpdate (p : PartId) (b : Fin 32)
  /-- STAGER_STEP (R208): The region's gating stager grants one step of a sleep entry or exit. -/
  | stagerStep (r : RegionId)
  /-- SLEEP_LIMIT_EXPIRE (R137): The clk limit of a SLEEP or SPIN runs out. -/
  | sleepLimitExpire (t : TileAddr)
  /-- PARTITION_START_ARRIVAL (R239): Partition start reaches a tile, which begins at index 0 with its schedule clock at zero. -/
  | partitionStartArrival (t : TileAddr)
  /-- STEP_BOUNDARY (R21): The Signal Box closes a manifest, applying shadows, switches, cancels and acceptances in order. -/
  | stepBoundary (p : PartId)
  /-- IDLE_BOUNDARY (R267): A boundary that does steps 1 to 4 of R21 and closes no manifest, run on work or on a timer. -/
  | idleBoundary (p : PartId)
  /-- MANIFEST_SEND (R269): With a step credit, the body is sent to window 15 of the entry and embedding tiles, then the notice. -/
  | manifestSend (p : PartId)
  /-- STEP_CREDIT (R270): A CRED with idx 15 at the rim gate returns a step credit to the Signal Box. -/
  | stepCredit (p : PartId)
  /-- RETIRE_CREDIT (R403): A CRED with idx 14 marks the oldest step as having left the pipeline. -/
  | retireCredit (p : PartId)
  /-- TOKEN_NOTICE (R278): A sampled token's notice is judged as duplicate, discard or new and held for its record. -/
  | tokenNotice (p : PartId)
  /-- STREAM_RECORD_WRITE (R278): Once the ring has room, the held token is logged and its stream record written. -/
  | streamRecordWrite (r : RowId)
  /-- PAGE_FULL_NOTICE (R312): A page-full notice marks the page FULL, frees its slot and queues a seal and any export. -/
  | pageFullNotice (p : PartId)
  /-- TABLE_WRITE_ACK (R302): A page-table line write is acknowledged at the rim. -/
  | tableWriteAck (p : PartId)
  /-- PROMPT_COPY_DONE (R263): A committed row's prompt copy completes, so it can be considered. -/
  | promptCopyDone (r : RowId) (ok : Bool) (toks : List Word)
  /-- DEADLINE_MISS (R275): Hall time passes a row's DEADLINE before it finishes. -/
  | deadlineMiss (r : RowId)
  /-- ROW_OVERDUE (R272): A row ready for 80 ms without riding becomes overdue. -/
  | rowOverdue (r : RowId)
  /-- ROW_CLAIM (R262): Host write FREE to FILLING claims a row. -/
  | rowClaim (w : WinId) (r : RowId) (gen : BitVec 16)
  /-- ROW_RELEASE_UNSUBMITTED (R262): Host write FILLING to FREE releases a row without submission. -/
  | rowReleaseUnsubmitted (w : WinId) (r : RowId) (gen : BitVec 16)
  /-- ROW_COMMIT (R262): Host write FILLING to SUBMITTED commits a row and starts its prompt copy. -/
  | rowCommit (w : WinId) (r : RowId) (gen : BitVec 16)
  /-- ROW_WITHDRAW (R262): Host write SUBMITTED to FILLING withdraws a row at the next boundary. -/
  | rowWithdraw (w : WinId) (r : RowId) (gen : BitVec 16)
  /-- ROW_CANCEL (R284): Host write to DRAINING cancels a row at the next boundary. -/
  | rowCancel (w : WinId) (r : RowId) (gen : BitVec 16)
  /-- ROW_RELEASE (R262): Host write DONE or EXPORTED to FREE releases a row and its pages. -/
  | rowRelease (w : WinId) (r : RowId) (gen : BitVec 16)
  /-- SPEC_REQ (R285): The draft Signal Box takes a REQ, logs its tokens and runs steps for drafts. -/
  | specReq (p : PartId) (m : SpecMsg)
  /-- SPEC_PROP (R286): A PROP arrives and makes the main row ready with a verify entry. -/
  | specProp (p : PartId) (m : SpecMsg)
  /-- SPEC_END (R285): An END completes the draft row with done code 3. -/
  | specEnd (p : PartId) (m : SpecMsg)
  /-- SPEC_TIMEOUT (R286): The PROP wait runs out and the pass runs as a decode entry. -/
  | specTimeout (r : RowId)
  /-- STREAM_ENABLE (R279): Setting STREAM_CFG_k.enable to one zeroes PRODUCED and CONSUMED. -/
  | streamEnable (w : WinId) (k : Fin 32) (v : Word)
  /-- CREATE (R318): KVP command that makes a prefix handle from a finished row. -/
  | create (w : WinId)
  /-- RETIRE (R330): KVP command that retires a prefix handle. -/
  | retire (w : WinId)
  /-- PARK (R328): KVP command that moves a handle's pages into a cache partition. -/
  | park (w : WinId)
  /-- RECALL (R328): KVP command that moves a parked handle's pages back into a serving partition. -/
  | kvRecall (w : WinId)
  /-- SHIP_MESSAGE_RX (R326): A received page ship message is checked, placed and acknowledged. -/
  | shipMessageRx (p : PartId) (m : ShipMsg)
  /-- SHIP_ACK_RX (R325): A ship acknowledgement reaches the sender and counts toward the export. -/
  | shipAckRx (p : PartId) (a : ShipAck)
  /-- SHIP_RETRY (R327): A ship message unacknowledged for 1 ms is sent again. -/
  | shipRetry (p : PartId) (i : Nat)
  /-- LOAD_IMAGE (R351): RND command that checks a build image, quarantines the partition and loads the image. -/
  | loadImage (w : WinId) (img : ImageFile)
  /-- LOAD_GEN (R351): RND command that loads a model generation into the free copy. -/
  | loadGen (w : WinId) (m : ManifestFile)
  /-- LOAD_ADAPTER (R357): RND command that loads an adapter generation into a slot's free copy. -/
  | loadAdapter (w : WinId) (m : ManifestFile)
  /-- RETIRE_ADAPTER (R359): RND command that makes a slot not resident for new rows. -/
  | retireAdapter (w : WinId)
  /-- ABORT (R360): RND command that aborts a running load or discards an unswitched generation. -/
  | abort (w : WinId)
  /-- SHARD_RECEIVED (R341): A shard lies wholly in its master and is distributed at P3. -/
  | shardReceived (w : WinId) (i : Nat) (bytes : List Byte)
  /-- SHARD_HASHED (R342): A shard's digest completes on engine `k` and is compared. -/
  | shardHashed (w : WinId) (i : Nat) (k : Fin 64)
  /-- SHARD_STALL (R343): A source makes no progress for 100 ms and the fetch fails. -/
  | shardStall (w : WinId) (i : Nat)
  /-- BADGER_VISIT (R352): The badger re-hashes a resident shard's lines on engine `k` and its master on engine `m`. -/
  | badgerVisit (p : PartId) (slot : Option (Fin 1024)) (copy : Bool) (shard : Nat) (k m : Fin 64)
  /-- SCRUB_REPAIR (R353): Once steps naming the copy have drained, its lines are rewritten from the master. -/
  | scrubRepair (p : PartId)
  /-- SCRUB_LOG_WRITE (R355): A waiting report is written to the scrub log when room appears. -/
  | scrubLogWrite
  /-- SLOT_OPEN (R377): A 64 ns link slot opens and sends cells by its kind in the active table. -/
  | slotOpen (n : PortId)
  /-- LINK_CELL_RX (R365): A received link cell is corrected and delivered, through-run or dropped. `fec`: how many codewords were
  corrected for it (R386). -/
  | linkCellRx (n : PortId) (frame : BitVec 16) (slot : Fin 1024) (idx : Fin 128) (raw : BitVec 704) (spoiled : CellNote) (fec : Byte)
  /-- NAK_RX (R387): A NAK makes the port resend the named cells ahead of other management cells. -/
  | nakRx (n : PortId) (frame : BitVec 16) (slot : Fin 1024) (idx : Fin 128)
  /-- TIME_CELL_RX (R369): A time cell completes an exchange and corrects hall time from the upstream port. -/
  | timeCellRx (n : PortId) (m : TimeMsg)
  /-- THRU_EXPIRE (R379): A through-run cell unclaimed for 16 slots is dropped. -/
  | thruExpire (n : PortId)
  /-- SLOT_TABLE_SWAP (R376): At SWAP_FRAME the shadow slot table becomes active. -/
  | slotTableSwap (n : PortId)
  /-- LINK_TRAINED (R364): All 8 lanes train in both directions and the port becomes UP. -/
  | linkTrained (n : PortId) (peerHall : BitVec 16) (peerPort : PortId)
  /-- LINK_LOCK_LOST (R364): A lane loses lock and the port goes FAILED. -/
  | linkLockLost (n : PortId) (lane : Fin 8)
  /-- LINK_SIGNAL_LOST (R388): A neighbour in electrical idle takes the port to IDLE and its queued cells are dropped. -/
  | linkSignalLost (n : PortId)
  /-- RETRAIN (R364): LNK_CTRL.retrain retrains a port. -/
  | retrain (w : WinId) (n : PortId)
  /-- SLOT_DATA_WRITE (R375): A write of a slot entry, judged against ownership and table rules. -/
  | slotDataWrite (w : WinId) (n : PortId) (v : Word)
  /-- HALL_EPOCH_EDGE (R368): A HALL_EPOCH edge sets the root's hall time or checks another module's. -/
  | hallEpochEdge
  /-- HALL_REF_LOCK (R367): HALL_REF appears and the clocks slew to lock. -/
  | hallRefLock
  /-- HALL_REF_LOST (R372): HALL_REF is lost and hall time enters HOLDOVER. -/
  | hallRefLost
  /-- HOLDOVER_EXPIRE (R372): holdover_ms runs out and timetabled cells stop. -/
  | holdoverExpire
  /-- HOST_DOWN (R393): A conventional reset or link loss of the host port fails prompt fetches and holds records. -/
  | hostDown (why : HostLoss)
  /-- PERST_RELEASE (R461): PERST# is released and the host port trains. -/
  | perstRelease (speed : Fin 8) (width : BitVec 4) (flit : Bool)
  /-- BUS_MASTER_ENABLE (R393): Bus Master Enable returns and the function's unconsumed records are rewritten. -/
  | busMasterEnable (w : ConfigWrite)
  /-- FUNCTION_LEVEL_RESET (R392): An FLR kills the virtual interface's rows, rings, commands, handles and private slots. -/
  | functionLevelReset (w : WinId)
  /-- ERROR_EVENT (R400): An error event reaches the Sufin controller and is queued as a record. -/
  | errorEvent (e : ErrEvent)
  /-- RECOVERY_START (R409): The controller takes the oldest queued record whose partition has no recovery running. -/
  | recoveryStart
  /-- PURGE_END (R406): The purge interval ends, repairs are made and the partition restarts. -/
  | purgeEnd (p : PartId)
  /-- RESTART (R413): RECOVER op that ends a halt safe by steps 2 to 6 of R406. -/
  | restart (w : WinId) (p : PartId)
  /-- FUSE_TRIP (R415): A region's electronic fuse trips on overcurrent and opens. -/
  | fuseTrip (r : RegionId)
  /-- CLOCK_FEED_STOP (R416): A region's live clock feed stops. -/
  | clockFeedStop (r : FeedStop)
  /-- SUFIN_RESET (R422): The Sufin watchdog resets the controller after 50 ms without service. -/
  | sufinReset
  /-- SIGNAL_BOX_RESET (R422): The Signal Box resets internally and reloads its state from the mirror. -/
  | signalBoxReset
  /-- ROUNDHOUSE_RESET (R422): The Roundhouse resets internally and its running commands end with 0x0A. -/
  | roundhouseReset
  /-- STACK_OUT (R401): A rim stack fails or is parked and its mirror state is rewritten elsewhere. -/
  | stackOut (k : StackId) (parked : Bool)
  /-- GOVERNOR_TICK (R445): The 1 ms sensor reading: duty lever, parks, shutdown and the throttle level. -/
  | governorTick (g : GovReading)
  /-- FAST_LIMIT (R444): A 10 µs power sample above 28.5 kW cuts D by 4 %. -/
  | fastLimit (watts : Nat)
  /-- DUTY_WINDOW (R444): Each 1,024-clk window the governor assigns duty and thermal hold clk to partitions. Of partitions that
  have read equally, the one at or next after `first` goes first, which the rule leaves open. -/
  | dutyWindow (first : PartId)
  /-- CAP_RECOMPUTE (R443): Every 100 ms the power cap C is recomputed. -/
  | capRecompute
  /-- BUSBAR_LOST (R430): One busbar stays below 42 V for 100 µs and the limit falls to 13 kW. -/
  | busbarLost (busB : Bool)
  /-- BUSBAR_VOLTAGE_FAULT (R446): Undervoltage on both busbars or overvoltage on either shuts the module down. -/
  | busbarVoltageFault (v : VoltFault)
  /-- WEAR_UPDATE (R448): Hourly wear estimates and remaining life are recomputed. -/
  | wearUpdate (ts : List (Fin 145 × WearTerms))
  /-- SAMPLE_IN_EDGE (R451): A SAMPLE_IN edge of the selected kind triggers a scan. -/
  | sampleInEdge (rising : Bool)
  /-- SCAN_TIMER (R451): A millisecond trigger or self-trigger starts a scan. -/
  | scanTimer
  /-- FORCE (R451): SNS_CTRL.force triggers a scan before bring-up completes. -/
  | force (w : WinId) (v : Word)
  /-- CONVERSION_DONE (R454): A channel conversion completes and its result register is written. -/
  | conversionDone (code : Int)
  /-- COLD_BRINGUP (R460): MOD_RESET_N rises with good busbars and cold bring-up starts. -/
  | coldBringup (bootAlt calSigOk : Bool)
  /-- MODULE_RESET (R476): MOD_RESET_N held low resets the module. -/
  | moduleReset
  /-- RING_TEST (R462): A ring of regions starts its bring-up stages at its scheduled time. -/
  | ringTest (ring : Fin 6) (fails : List TestFail)
  /-- BRINGUP_DONE (R461): Attestation measurements are taken and bring-up is complete. -/
  | bringupDone
  /-- WARM (R464): BRU_CTRL op that starts a warm restart. -/
  | warm (w : WarmReq)
  /-- WARM_DONE (R464): The warm restart completes and partitions resume. -/
  | warmDone (fails : List TestFail)
  /-- CLEAR_FIELD (R463): BRU_CTRL op that removes the field fault map at the next cold bring-up. -/
  | clearField (w : WinId)
  /-- ENROL (R468): Enrolment command that enrols a key. -/
  | enrol (w : WinId) (c : EnrolCmd)
  /-- REVOKE (R468): Enrolment command that revokes a key identifier. -/
  | revoke (w : WinId) (c : EnrolCmd)
  /-- RELEASE (R468): Enrolment command that kills every partition and leaves the module unowned. -/
  | release (w : WinId) (c : EnrolCmd)
  /-- ATTEST (R469): SEC command that writes a signed attestation report. -/
  | attest (w : WinId)
  /-- FW_WRITE (R466): SEC command that writes and checks firmware in the idle slot. -/
  | fwWrite (w : WinId) (fw : FwImage)
  /-- CERT_READ (R467): SEC command that writes the certificate chain to host memory. -/
  | certRead (w : WinId)
  /-- SAVE (R499): CAL command that stores every user offset in flash. -/
  | save (w : SaveReq)
  /-- RESTORE (R499): CAL command that zeroes user offsets and restores the factory VCORE trims. -/
  | restore (w : WinId)
  /-- CAL_USER_WRITE (R498): A write of the user offset of the selected calibration item. -/
  | calUserWrite (w : WinId) (v : Word)
  /-- READ (R500): TWN command that reads a tile space into TWN_DATA at P5. -/
  | read (w : ReadReq)
  /-- WRITE_CTRL (R500): TWN command that writes a tile's TILE_CTRL. -/
  | writeCtrl (w : WinId)
  /-- CTR_CLEAR (R486): PAGE_CTRL.ctr_clear clears the page's counters. -/
  | ctrClear (w : WinId) (page : BitVec 16)
  /-- ERR_CLEAR (R483): PAGE_CTRL.err_clear clears ERR_FIRST and ERR_COUNT of the window. -/
  | errClear (w : WinId) (page : BitVec 16)
  /-- CFG_APPLY (R491): A request to apply pending shadows, or to run an idle boundary. -/
  | cfgApply (w : WinId) (page : BitVec 16)
  /-- EVT_FORCE (R483): Sets an EVT_STAT bit in this window only. -/
  | evtForce (w : WinId) (page : BitVec 16) (v : Word)
  /-- EVT_STAT_CLEAR (R484): A W1C write to EVT_STAT that may send a further interrupt message. -/
  | evtStatClear (w : WinId) (page : BitVec 16) (v : Word)
  /-- RWS_SHADOW_WRITE (R490): A write to an RWS field is held as a shadow and sets pend. -/
  | rwsShadowWrite (w : WinId) (off : BitVec 28) (v : Word)
  /-- REGISTER_WRITE (R487): A write to a register without its own row, judged by access class and RWQ quiescence. -/
  | registerWrite (w : WinId) (off : BitVec 28) (wide : Bool) (v : DWord) (be : BitVec 8)
  /-- LOW_WORD_READ_CAPTURE (R10): A read of a 64-bit register's low word captures the high word for the window; the next read of the
  high word returns it and ends the capture. -/
  | lowWordReadCapture (w : WinId) (r : RegRead)
  /-- FLT_RECORD_READ (R497): A read of the first word of an FLT slot captures the whole record. -/
  | fltRecordRead (w : WinId) (r : RegRead)
  /-- STREAM_HOLDOFF_EXPIRE (R279): A written stream record has waited STREAM_CFG_k.holdoff µs without its batch filling, and the ring's interrupt is sent. -/
  | streamHoldoffExpire (w : WinId) (k : Fin 32)
  /-- QUARANTINE_END (R471): Zeroisation and read-back of a quarantined partition complete, and the new image's programs are written. -/
  | quarantineEnd (p : PartId) (bad : List RegionId)
  /-- LOAD_CHECKS_DONE (R252): The load checks of an image, lasting up to 438 ms with BUILD_STAT in checking, finish and the image is accepted or refused. -/
  | loadChecksDone (w : WinId)
  /-- PEER_LEAVES_ELECTRICAL_IDLE (R364): The peer of a link port leaves electrical idle or begins retraining, and the port starts training from IDLE or FAILED. -/
  | peerLeavesElectricalIdle (n : PortId)
  /-- HOST_LINK_ACTIVE (R398): The host PCI Express link becomes active again after a loss, and HOST_UP is raised. -/
  | hostLinkActive (speed : Fin 8) (width : BitVec 4) (flit : Bool)
  /-- BUSBAR_RESTORED (R443): A lost busbar returns within the limits of Table 13.1, so the limit in force is no longer held at 13 kW. -/
  | busbarRestored (busB : Bool)
  /-- SHARD_READ_ERROR (R343): A host read of a shard completes with an error, the partial shard is discarded and a refetch starts from the next source. -/
  | shardReadError (w : WinId) (i : Nat)
  /-- SEQUENCER_ACCESS_DONE (R118): The bank access of an LDC.M, STC.M, STEPWAIT or TAKE completes, writing its scalar or granules and releasing its interlock or scoreboard entry. -/
  | sequencerAccessDone (v : Visit)
  /-- SUFIN_RETURN (R422): The Sufin controller returns to service after a watchdog reset, takes the events held by the units and restarts any interrupted recovery from step 2. -/
  | sufinReturn
  /-- VECTOR_UNMASK (R391): The host unmasks an MSI-X vector in BAR2, and the message held by its pending bit is sent. -/
  | vectorUnmask (fn : WinId) (vec : VectorWrite)
  deriving DecidableEq, Repr

end Sys2Proof
end

