-- ==== Sys2Proof/Decode.lean ====
section
/-! DEFINITION. The rows of spec/opcode_table.json give no bits, so `decodeTableWord` answers none (log entry 1). The file also
holds the 64-bit instruction words of a tile: their encoder, their decoder and R109, after Tables 4.2 to 4.4, 5.1 and 5.2. -/
namespace Sys2Proof

/-- No row of the table gives bits: no word spells a command. -/
def decodeTableWord (_nbits _w : Nat) : Option Instr := none

/-! ### Formats (Tables 4.2 and 4.3) -/

/-- The word of opcode `op` in format C (Table 4.2). -/
def FmtC.word (op : BitVec 8) (f : FmtC) : DWord :=
  op ++ f.sfx ++ f.sd ++ f.sa ++ f.sb ++ BitVec.ofBool f.i ++ f.res ++ f.imm

/-- The word of opcode `op` in format A (Table 4.3). -/
def FmtA.word (op : BitVec 8) (f : FmtA) : DWord :=
  op ++ f.sfx ++ f.ad ++ f.as_ ++ f.at_ ++ f.sx ++ f.sy ++ f.idx ++ f.imm

/-- The fields of a format C word (Table 4.2). -/
def FmtC.ofWord (w : DWord) : FmtC where
  sfx := w.extractLsb' 52 4
  sd  := w.extractLsb' 47 5
  sa  := w.extractLsb' 42 5
  sb  := w.extractLsb' 37 5
  i   := w.getLsbD 36
  res := w.extractLsb' 32 4
  imm := w.extractLsb' 0 32

/-- The fields of a format A word (Table 4.3). -/
def FmtA.ofWord (w : DWord) : FmtA where
  sfx := w.extractLsb' 52 4
  ad  := w.extractLsb' 48 4
  as_ := w.extractLsb' 44 4
  at_ := w.extractLsb' 40 4
  sx  := w.extractLsb' 35 5
  sy  := w.extractLsb' 30 5
  idx := w.extractLsb' 24 6
  imm := w.extractLsb' 0 24

/-- Bits [63:56] (R108). -/
def opcodeOf (w : DWord) : BitVec 8 := w.extractLsb' 56 8

/-! ### Opcodes (Tables 4.4 and 5.1) -/

/-- A decoded tile instruction: its tile-instruction command. None for a reserved or undefined opcode (R109). -/
def decodeWord (t : TileAddr) (w : DWord) : Option Instr :=
  match (opcodeOf w).toNat with
  | 0x00 => some (.nop t (FmtC.ofWord w))
  | 0x01 => some (.jmp t (FmtC.ofWord w))
  | 0x02 => some (.brc t (FmtC.ofWord w))
  | 0x03 => some (.loop t (FmtC.ofWord w))
  | 0x04 => some (.call t (FmtC.ofWord w))
  | 0x05 => some (.ret t (FmtC.ofWord w))
  | 0x06 => some (.halt t (FmtC.ofWord w))
  | 0x07 => some (.stepwait t (FmtA.ofWord w))
  | 0x08 => some (.sets t (FmtC.ofWord w))
  | 0x09 => some (.adds t (FmtC.ofWord w))
  | 0x0A => some (.subs t (FmtC.ofWord w))
  | 0x0B => some (.ands t (FmtC.ofWord w))
  | 0x0C => some (.ors t (FmtC.ofWord w))
  | 0x0D => some (.shls t (FmtC.ofWord w))
  | 0x0E => some (.cmps t (FmtC.ofWord w))
  | 0x0F => some (.movs t (FmtC.ofWord w))
  | 0x10 => some (.ldc t (FmtC.ofWord w))
  | 0x11 => some (.stc t (FmtC.ofWord w))
  | 0x20 => some (.waita t (FmtC.ofWord w))
  | 0x21 => some (.clra t (FmtC.ofWord w))
  | 0x22 => some (.wake t (FmtC.ofWord w))
  | 0x23 => some (.sleep t (FmtC.ofWord w))
  | 0x24 => some (.spin t (FmtC.ofWord w))
  | 0x25 => some (.bara t (FmtC.ofWord w))
  | 0x26 => some (.barw t (FmtC.ofWord w))
  | 0x27 => some (.holdreq t (FmtC.ofWord w))
  | 0x28 => some (.fence t (FmtC.ofWord w))
  | 0x40 => some (.dload t (FmtA.ofWord w))
  | 0x41 => some (.dstore t (FmtA.ofWord w))
  | 0x42 => some (.dlatch t (FmtA.ofWord w))
  | 0x43 => some (.send t (FmtA.ofWord w))
  | 0x44 => some (.win t (FmtA.ofWord w))
  | 0x45 => some (.cred t (FmtA.ofWord w))
  | 0x46 => some (.copy t (FmtA.ofWord w))
  | 0x60 => some (.desc t (FmtA.ofWord w))
  | 0x61 => some (.take t (FmtA.ofWord w))
  | 0x62 => some (.plat t (FmtA.ofWord w))
  | 0x63 => some (.flushp t (FmtA.ofWord w))
  | 0x80 => some (.matv t (FmtA.ofWord w))
  | 0x81 => some (.matm t (FmtA.ofWord w))
  | 0x82 => some (.accz t (FmtA.ofWord w))
  | 0x83 => some (.accout t (FmtA.ofWord w))
  | 0x84 => some (.kdot t (FmtA.ofWord w))
  | 0x85 => some (.vacc t (FmtA.ofWord w))
  | 0x86 => some (.adapt t (FmtA.ofWord w))
  | 0xA0 => some (.qact t (FmtA.ofWord w))
  | 0xA1 => some (.cvt t (FmtA.ofWord w))
  | 0xA2 => some (.vadd t (FmtA.ofWord w))
  | 0xA3 => some (.vsub t (FmtA.ofWord w))
  | 0xA4 => some (.vmul t (FmtA.ofWord w))
  | 0xA5 => some (.vfma t (FmtA.ofWord w))
  | 0xA6 => some (.vmax t (FmtA.ofWord w))
  | 0xA7 => some (.vexp t (FmtA.ofWord w))
  | 0xA8 => some (.vrcp t (FmtA.ofWord w))
  | 0xA9 => some (.vrsq t (FmtA.ofWord w))
  | 0xAA => some (.vsumx t (FmtA.ofWord w))
  | 0xAB => some (.vsel t (FmtA.ofWord w))
  | 0xAC => some (.smax t (FmtA.ofWord w))
  | 0xAD => some (.sample t (FmtA.ofWord w))
  | 0xAE => some (.topk t (FmtA.ofWord w))
  | _ => none

/-- The tile and the word of a tile-instruction command; none for every other command. -/
def Instr.tileWord : Instr → Option (TileAddr × DWord)
  | .nop t f => some (t, f.word 0x00)
  | .jmp t f => some (t, f.word 0x01)
  | .brc t f => some (t, f.word 0x02)
  | .loop t f => some (t, f.word 0x03)
  | .call t f => some (t, f.word 0x04)
  | .ret t f => some (t, f.word 0x05)
  | .halt t f => some (t, f.word 0x06)
  | .stepwait t f => some (t, f.word 0x07)
  | .sets t f => some (t, f.word 0x08)
  | .adds t f => some (t, f.word 0x09)
  | .subs t f => some (t, f.word 0x0A)
  | .ands t f => some (t, f.word 0x0B)
  | .ors t f => some (t, f.word 0x0C)
  | .shls t f => some (t, f.word 0x0D)
  | .cmps t f => some (t, f.word 0x0E)
  | .movs t f => some (t, f.word 0x0F)
  | .ldc t f => some (t, f.word 0x10)
  | .stc t f => some (t, f.word 0x11)
  | .waita t f => some (t, f.word 0x20)
  | .clra t f => some (t, f.word 0x21)
  | .wake t f => some (t, f.word 0x22)
  | .sleep t f => some (t, f.word 0x23)
  | .spin t f => some (t, f.word 0x24)
  | .bara t f => some (t, f.word 0x25)
  | .barw t f => some (t, f.word 0x26)
  | .holdreq t f => some (t, f.word 0x27)
  | .fence t f => some (t, f.word 0x28)
  | .dload t f => some (t, f.word 0x40)
  | .dstore t f => some (t, f.word 0x41)
  | .dlatch t f => some (t, f.word 0x42)
  | .send t f => some (t, f.word 0x43)
  | .win t f => some (t, f.word 0x44)
  | .cred t f => some (t, f.word 0x45)
  | .copy t f => some (t, f.word 0x46)
  | .desc t f => some (t, f.word 0x60)
  | .take t f => some (t, f.word 0x61)
  | .plat t f => some (t, f.word 0x62)
  | .flushp t f => some (t, f.word 0x63)
  | .matv t f => some (t, f.word 0x80)
  | .matm t f => some (t, f.word 0x81)
  | .accz t f => some (t, f.word 0x82)
  | .accout t f => some (t, f.word 0x83)
  | .kdot t f => some (t, f.word 0x84)
  | .vacc t f => some (t, f.word 0x85)
  | .adapt t f => some (t, f.word 0x86)
  | .qact t f => some (t, f.word 0xA0)
  | .cvt t f => some (t, f.word 0xA1)
  | .vadd t f => some (t, f.word 0xA2)
  | .vsub t f => some (t, f.word 0xA3)
  | .vmul t f => some (t, f.word 0xA4)
  | .vfma t f => some (t, f.word 0xA5)
  | .vmax t f => some (t, f.word 0xA6)
  | .vexp t f => some (t, f.word 0xA7)
  | .vrcp t f => some (t, f.word 0xA8)
  | .vrsq t f => some (t, f.word 0xA9)
  | .vsumx t f => some (t, f.word 0xAA)
  | .vsel t f => some (t, f.word 0xAB)
  | .smax t f => some (t, f.word 0xAC)
  | .sample t f => some (t, f.word 0xAD)
  | .topk t f => some (t, f.word 0xAE)
  | _ => none

/-! ### Legal words (R109, R110) -/

/-- How a definition uses a 5-bit field of format C: not at all, a scalar, or a range register (top bit zero). -/
inductive Fld where
  | unused
  | scalar
  | range
  deriving DecidableEq, Repr

/-- The field's reserved bits are zero. -/
def Fld.ok : Fld → BitVec 5 → Bool
  | .unused, x => x == 0
  | .scalar, _ => true
  | .range, x  => x.getLsbD 4 == false

/-- What a format C definition uses (R110); `src2` takes sb when i is 0 and imm when i is 1, each reserved in the other case. -/
structure UseC where
  sd   : Fld := .unused
  sa   : Fld := .unused
  sb   : Bool := false
  src2 : Bool := false
  /-- bits of imm in use when i is 0 (or always, when the instruction has no src2) -/
  imm0 : Word := 0
  /-- bits of imm in use when i is 1 -/
  imm1 : Word := 0
  deriving DecidableEq, Repr

/-- Every bit the definition does not use is zero (R109, R110). -/
def UseC.ok (u : UseC) (f : FmtC) : Bool :=
  f.res == 0 && u.sd.ok f.sd && u.sa.ok f.sa &&
  (if f.i then u.src2 && f.sb == 0 && f.imm &&& ~~~u.imm1 == 0
   else (u.src2 || u.sb || f.sb == 0) && f.imm &&& ~~~u.imm0 == 0)

/-- What a format A definition uses (R110). -/
structure UseA where
  ad  : Bool := false
  as_ : Bool := false
  at_ : Bool := false
  sx  : Bool := false
  sy  : Bool := false
  idx : BitVec 6 := 0
  imm : BitVec 24 := 0
  deriving DecidableEq, Repr

/-- Every bit the definition does not use is zero (R109, R110). -/
def UseA.ok (u : UseA) (f : FmtA) : Bool :=
  (u.ad || f.ad == 0) && (u.as_ || f.as_ == 0) && (u.at_ || f.at_ == 0) && (u.sx || f.sx == 0) && (u.sy || f.sy == 0) &&
  f.idx &&& ~~~u.idx == 0 && f.imm &&& ~~~u.imm == 0

/-- The use of each format C opcode of Table 4.4 under a suffix it defines; none for an undefined suffix. -/
def useC (op : Nat) (sfx : BitVec 4) : Option UseC :=
  let n := sfx.toNat
  match op with
  | 0x00 | 0x05 | 0x06 => if n = 0 then some {} else none
  | 0x01 | 0x04 => if n = 0 then some { imm0 := 0x7FF } else none
  | 0x02 => if n ≤ 3 then some { sa := .scalar, imm0 := 0x7FF } else none
  | 0x03 => if n = 0 then some { src2 := true, imm0 := 0x7FF, imm1 := 0xFFFF07FF } else none
  | 0x08 => if n = 0 then some { sd := .scalar, imm0 := 0xFFFFFFFF }
            else if n = 1 then some { sd := .range, imm0 := 0xFFFF3FFF } else none
  | 0x09 | 0x0A | 0x0B | 0x0C =>
            if n = 0 then some { sd := .scalar, sa := .scalar, src2 := true, imm1 := 0xFFFFFFFF } else none
  | 0x0D => if n ≤ 2 then some { sd := .scalar, sa := .scalar, src2 := true, imm1 := 0xFFFFFFFF } else none
  | 0x0E => if n ≤ 5 then some { sd := .scalar, sa := .scalar, src2 := true, imm1 := 0xFFFFFFFF } else none
  | 0x0F => if n = 0 then some { sd := .scalar, sa := .scalar }
            else if n = 1 then some { sd := .range, sa := .range }
            else if n ≤ 3 then some { sd := .scalar, sa := .range }
            else if n ≤ 7 then some { sd := .range, sa := .scalar } else none
  | 0x10 => if n = 0 then some { sd := .scalar, imm0 := 0xFF }
            else if n = 1 then some { sd := .scalar, sa := .scalar, imm0 := 0xFFFFFFFF } else none
  | 0x11 => if n = 0 then some { sa := .scalar, imm0 := 0xFF }
            else if n = 1 then some { sa := .scalar, sb := true, imm0 := 0xFFFFFFFF } else none
  | 0x20 => some { src2 := true, imm1 := 0xFFFFFFFF }
  | 0x21 => some {}
  | 0x22 => if n ≤ 5 then some { sa := .scalar } else none
  | 0x23 | 0x24 => if n = 0 then some { sd := .scalar, src2 := true, imm0 := 0xFF, imm1 := 0xFFFFFFFF } else none
  | 0x25 | 0x26 => if n = 0 then some { imm0 := 0x1F } else none
  | 0x27 => if n = 0 then some { src2 := true, imm1 := 0xFFFF } else none
  | 0x28 => if n = 0 then some { imm0 := 0xF } else none
  | _ => none

/-- Bits imm[17:0] of the instructions that draw (R159). -/
def drawBits : BitVec 24 := 0x03FFFF

/-- The use of each format A opcode of Tables 4.4, 5.1 and 5.2 under a suffix it defines; none for an undefined suffix. -/
def useA (op : Nat) (sfx : BitVec 4) : Option UseA :=
  let n := sfx.toNat
  let b0 := sfx.getLsbD 0
  let b1 := sfx.getLsbD 1
  let b2 := sfx.getLsbD 2
  let b3 := sfx.getLsbD 3
  match op with
  | 0x07 => if n = 0 then some { ad := true, sx := true } else none
  | 0x40 | 0x41 => if n ≤ 1 then some { ad := true, as_ := true } else none
  | 0x42 => if n = 0 then some { as_ := true } else none
  | 0x43 => if n ≤ 3 then some { as_ := true, sx := true, sy := true, idx := if b1 then 0 else 0xF, imm := 0xFFFFFF }
            else if n = 4 then some { as_ := true, sx := true } else none
  | 0x44 => if n ≤ 1 then some { ad := true, idx := 0xF, imm := 0xFFFFFF } else none
  | 0x45 => if n = 0 then some { sx := true, idx := 0xF, imm := 0xFF }
            else if n = 1 then some { sx := true, idx := 0xF, imm := 0xF0FF } else none
  | 0x46 => if n = 0 then some { ad := true, as_ := true } else none
  | 0x60 => if n ≤ 1 then some { as_ := true, sx := true } else none
  | 0x61 => if n = 0 then some { ad := true, sx := true } else none
  | 0x62 => if b3 then none
            else some { ad := true, as_ := true, sy := true, at_ := b2, sx := b2, imm := if b2 then 0xFFF else 0 }
  | 0x63 => if n ≤ 1 then some { ad := true, as_ := true, sx := b0, imm := if b0 then 0xFFF else 0 } else none
  | 0x80 => if b3 || (b0 && b1) then none else some { ad := true, as_ := true, at_ := true, sy := true }
  | 0x81 => if b0 && b1 then none else some { ad := true, as_ := !b3, at_ := true, sy := true, imm := 0xF }
  | 0x82 => if n = 0 then some { ad := true } else none
  | 0x83 => if b2 && b1 && b0 then none
            else some { ad := true, as_ := true, at_ := b2, sx := b2,
                        imm := (if b1 && b0 then 0 else 0xFC0000) ||| (if b2 then drawBits else 0) }
  | 0x84 | 0x85 => if b3 then none else some { ad := true, as_ := true, at_ := true, imm := 0xF }
  | 0x86 => if b3 || (b0 && b1) then none else some { ad := true, as_ := true, at_ := true, sy := true, imm := 0x3FFF }
  | 0xA0 => if b3 then none
            else some { ad := true, as_ := true, at_ := b2, sx := b2, imm := if b2 then drawBits else 0 }
  | 0xA1 => if n ≤ 1 then some { ad := true, as_ := true, at_ := b0, sx := b0, idx := 0x3F, imm := if b0 then drawBits else 0 }
            else none
  | 0xA2 | 0xA3 | 0xA4 | 0xA5 => if b3 || (b0 && b1) then none else some { ad := true, as_ := true, at_ := true }
  | 0xA6 => if (b0 && b1) || (b2 && b3) then none else some { ad := true, as_ := true, at_ := !b3 }
  | 0xA7 | 0xA8 | 0xA9 => if n ≤ 1 then some { ad := true, as_ := true } else none
  | 0xAA => if n ≤ 1 || n = 3 then some { ad := true, as_ := true } else none
  | 0xAB => if (b0 && b1) || (b2 && b3) then none else some { ad := true, as_ := true, at_ := true }
  | 0xAC => if n ≤ 1 then some { ad := true, as_ := true, at_ := true, sy := true } else none
  | 0xAD => if n ≤ 3 then some { ad := true, as_ := true, at_ := true, sx := true, sy := true } else none
  | 0xAE => if n ≤ 1 then some { ad := true, as_ := true, at_ := true, sx := !b0, imm := 0x7F } else none
  | _ => none

/-- R109: the word's opcode and suffix are defined and no reserved bit of it is set. -/
def wordLegal (w : DWord) : Bool :=
  let op := (opcodeOf w).toNat
  match useC op (w.extractLsb' 52 4) with
  | some u => u.ok (FmtC.ofWord w)
  | none =>
    match useA op (w.extractLsb' 52 4) with
    | some u => u.ok (FmtA.ofWord w)
    | none => false

end Sys2Proof
end

