-- ==== Sys2Proof/Machine/FMap.lean ====
section
/-! DEFINITION. Sparse register files and tables as plain data: a list of (index, value) pairs, indices strictly rising,
no value equal to the default that an unlisted index reads as. -/
namespace Sys2Proof.Machine

/-- A table with a default. -/
abbrev FMap (α : Type) := List (Nat × α)

variable {α : Type}

/-- The value at `k`; `d` where none is listed. -/
def FMap.get (d : α) : FMap α → Nat → α
  | [], _ => d
  | (j, v) :: m, k => if j = k then v else FMap.get d m k

/-- Lists `v` at `k`. -/
def FMap.put : FMap α → Nat → α → FMap α
  | [], k, v => [(k, v)]
  | (j, w) :: m, k, v =>
    if k < j then (k, v) :: (j, w) :: m else if j = k then (k, v) :: m else (j, w) :: FMap.put m k v

/-- Unlists `k`. -/
def FMap.erase : FMap α → Nat → FMap α
  | [], _ => []
  | (j, w) :: m, k => if j = k then FMap.erase m k else (j, w) :: FMap.erase m k

/-- Sets `k` to `v`, listing it only if it is not the default. -/
def FMap.set [DecidableEq α] (d : α) (m : FMap α) (k : Nat) (v : α) : FMap α :=
  if v = d then m.erase k else m.put k v

/-- Every listed index lies above `n`. -/
def FMap.above (n : Nat) (m : FMap α) : Bool := m.all (fun p => decide (n < p.1))

/-- The canonical form: indices strictly rising, no default listed. -/
def FMap.wf [DecidableEq α] (d : α) : FMap α → Bool
  | [] => true
  | (j, v) :: m => decide (v ≠ d) && FMap.above j m && FMap.wf d m

/-! ### Sorted lists -/

/-- Places `a` before the first entry that it is not after. -/
def insertBy (le : α → α → Bool) (a : α) : List α → List α
  | [] => [a]
  | b :: l => if le a b then a :: b :: l else b :: insertBy le a l

/-- Sorts by an order; equal entries keep their order. -/
def sortBy (le : α → α → Bool) (l : List α) : List α := l.foldr (insertBy le) []

/-! ### Byte memories -/

/-- A byte-addressed store: cells at rising addresses, none zero; an unlisted address reads 0 (log entry 6). -/
abbrev Mem := List Host.Cell

/-- What an address reads as that nothing has written (log entry 6). -/
def Mem.blank : Byte := 0

def Mem.get (m : Mem) (a : Nat) : Byte := FMap.get Mem.blank m a

/-- Whether the cells are in canonical form. -/
def Mem.wf (m : Mem) : Bool := FMap.wf Mem.blank m

/-- The cells of the bytes written at `a`, `a + 1`, …, the blank ones unlisted. -/
def Mem.cells : Nat → List Byte → Mem
  | _, [] => []
  | a, b :: bs => if b = Mem.blank then Mem.cells (a + 1) bs else (a, b) :: Mem.cells (a + 1) bs

/-- Stores `bs` at `a`, `a + 1`, …. -/
def Mem.write (m : Mem) (a : Nat) (bs : List Byte) : Mem :=
  m.filter (fun c => decide (c.1 < a)) ++ Mem.cells a bs ++ m.filter (fun c => decide (a + bs.length ≤ c.1))

/-- The `n` bytes at `a`, `a + 1`, …. -/
def Mem.read (m : Mem) (a n : Nat) : List Byte :=
  let w := m.filter (fun c => decide (a ≤ c.1) && decide (c.1 < a + n))
  (List.range n).map (fun i => Mem.get w (a + i))

/-- Clears `n` bytes at `a`. -/
def Mem.clear (m : Mem) (a n : Nat) : Mem :=
  m.filter (fun c => decide (c.1 < a) || decide (a + n ≤ c.1))

/-! ### Bytes and words, little-endian (R8) -/

/-- Byte k of a value holds bits [8k+7:8k]. -/
def bytesLE (n : Nat) (v : Nat) : List Byte :=
  (List.range n).map (fun i => BitVec.ofNat 8 (v >>> (8 * i)))

/-- The value of bytes, the first the least significant. -/
def natLE : List Byte → Nat
  | [] => 0
  | b :: bs => b.toNat + 256 * natLE bs

def wordLE (bs : List Byte) : Word := BitVec.ofNat 32 (natLE bs)

end Sys2Proof.Machine
end

