-- ==== Sys2Proof/Machine/TileState.lean ====
section
/-! DEFINITION. The state of one tile: sequencer, column, row engine, vector unit, scratchpad, synchronisation and router. -/
namespace Sys2Proof.Machine

/-- A range register a0–a15 (Table 2.6): space 0 scratchpad, 1 column, 2 accumulators, 3 reserved. -/
structure Range where
  space : BitVec 2 := 0
  len   : BitVec 14 := 0
  base  : BitVec 14 := 0
  deriving DecidableEq, Repr, Inhabited

/-- A long accumulator (R78). -/
structure Acc where
  value : BitVec 104 := 0
  hi    : Bool := false
  lo    : Bool := false
  inv   : Bool := false
  deriving DecidableEq, Repr, Inhabited

/-- A column line with its side field (R32): 1,024 and 128 bytes; a short list reads zero beyond its end. -/
structure Line where
  data : List Byte := []
  side : List Byte := []
  deriving DecidableEq, Repr, Inhabited

/-- The classes that FENCE selects (R142). -/
inductive SbClass where
  | memory
  | send
  | arith
  | serving
  deriving DecidableEq, Repr, Inhabited

/-- A scoreboard entry (R49, R117): ranges read and written, and the latch unit. -/
structure SbEntry where
  id     : Nat
  cls    : SbClass
  reads  : List Range
  writes : List Range
  rdLatch : Bool := false
  wrLatch : Bool := false
  /-- an ADAPT of no adapter, whose entry is released 1 clk after issue (R167) -/
  brief   : Bool := false
  deriving DecidableEq, Repr, Inhabited

/-- An active loop level (R127). -/
structure LoopLevel where
  start : BitVec 11
  stop  : BitVec 11
  left  : Nat
  deriving DecidableEq, Repr, Inhabited

/-- Why the instruction at the check stage stalls (R199, Table 7.18). -/
inductive Wait where
  | none
  | range
  | fill
  | credit
  | queue
  | scalar
  | mailbox
  | descQueue
  | barrier
  | other
  deriving DecidableEq, Repr, Inhabited

/-- A window bound to an arrival counter (R149). -/
structure Window where
  opened   : Bool := false
  range    : Range := {}
  expected : Nat := 0
  deriving DecidableEq, Repr, Inhabited

/-- A line access at P2 to P5 from outside the tile program (Table 2.8). -/
structure LowAccess where
  level : Nat
  line  : Nat
  data  : Line
  /-- who waits for this line: a row id, 8192 + a handle index, 16384 + the window of a running load, from 32768 on the copy of a load
  that was given up, or from 131072 on a page that arrived from another module (R302, R326, R342, R344) -/
  ack   : Option Nat := none
  deriving DecidableEq, Repr, Inhabited

/-- Contents of a flit. Payloads belong to the last head of their source and channel (R230). -/
inductive FlitBody where
  | sendHead (g0 n : Nat)
  | descHead (n : Nat)
  | payload (gs : List Granule)
  | step (g0 g1 : Granule)
  | wake (wire : Nat)
  | credit (c amount : Nat)
  | token (row tok tokId : Nat) (flags : Byte)
  | pageFull (row layer : Nat)
  | fault (info : Word)
  /-- the place, in issue order, of the notice that operation `id` will send when it completes (R186, R193) -/
  | due (id : Nat)
  /-- a column line from the rim for the tile's tier port: one message (R227, R302, R324, R341; log entry 109) -/
  | line (a : LowAccess)
  deriving DecidableEq, Repr, Inhabited

/-- Who injected a flit: a tile, the Signal Box or the Roundhouse at the rim gate, or the inbound link cells of a port. -/
inductive Source where
  | tile (t : TileAddr)
  | signalBox
  | roundhouse
  | link (port : Nat)
  deriving DecidableEq, Repr, Inhabited

/-- A flit (R225): its source, its target and whether it is rim-bound. -/
structure Flit where
  src  : Source
  dst  : TileAddr
  rim  : Bool := false
  body : FlitBody
  deriving DecidableEq, Repr, Inhabited

/-- A SEND arriving at a window (R204), or being discarded after WIN_FAULT (R148). -/
structure Arriving where
  src   : Source
  chan  : Chan
  win   : Nat
  next  : Nat
  left  : Nat
  beyond  : Bool := false
  drop  : Bool := false
  deriving DecidableEq, Repr, Inhabited

/-- A SEND to the outbound range of the rim gate whose payload is arriving (R382): its address and the granules so far. -/
structure Outbound where
  src  : Source
  chan : Chan
  g0   : Nat
  n    : Nat
  got  : List Granule := []
  deriving DecidableEq, Repr, Inhabited

/-- A DESC whose descriptors are still arriving (R188). -/
structure DescArriving where
  src  : Source
  chan : Chan
  left : Nat
  deriving DecidableEq, Repr, Inhabited

/-- Where the lines of a read operation go. -/
inductive ReadUse where
  | pad (granule : Nat) (side : Bool)
  | latch
  | rowEngine
  deriving DecidableEq, Repr, Inhabited

/-- A read operation: the lines not yet delivered, of which the first `started` are in the column pipeline (Table 2.7). -/
structure ReadOp where
  id    : Nat
  lines : List Nat
  use   : ReadUse
  started : Nat := 0
  deriving DecidableEq, Repr, Inhabited

/-- An operation of the DRAM write queue: DSTORE at P1 or FLUSHP at P2 (R144, R192). -/
structure WriteOp where
  id      : Nat
  line    : Nat
  left    : Nat
  granule : Nat
  side    : Bool
  flush   : Bool
  notice  : Option (Nat × Nat) := none
  deriving DecidableEq, Repr, Inhabited

/-- What has begun a line write at the tier ports: the front of the write queue, or a waiting access of a level (R56). -/
inductive Writing where
  | queue
  | low (level : Nat)
  deriving DecidableEq, Repr, Inhabited

/-- A line that has reached the row engine (R35). -/
structure LineIn where
  id   : Nat
  line : Line
  deriving DecidableEq, Repr, Inhabited

/-- A row-engine or vector instruction in flight: its word fields, the range registers and scalars copied at issue (R116),
its groups or lines in all and done, whether the next one has begun (R162), and the arithmetic events it has raised (R100, once
per instruction). -/
structure AOp where
  id    : Nat
  op    : Nat
  f     : FmtA
  d     : Range := {}
  d1    : Range := {}
  d2    : Range := {}
  a     : Range := {}
  a1    : Range := {}
  a2    : Range := {}
  b     : Range := {}
  b1    : Range := {}
  b2    : Range := {}
  sx    : Word := 0
  sy    : Word := 0
  lines : List Nat := []
  total : Nat := 0
  done  : Nat := 0
  begun : Bool := false
  evts  : BitVec 4 := 0
  /-- the maximum that SMAX reads once, before its loop (R183) -/
  top   : Nat := 0
  deriving DecidableEq, Repr, Inhabited

/-- An operation of the send queue (R146, R187): `stage` 0 before the head, k + 1 after payload flit k. -/
structure SendOp where
  id     : Nat
  desc   : Bool
  step   : Bool
  chan   : Chan
  dst    : TileAddr
  g0     : Nat
  base   : Nat
  n      : Nat
  stage  : Nat := 0
  deriving DecidableEq, Repr, Inhabited

/-- A bank access of the sequencer requester in flight (R118, R119, R129, R189). -/
inductive SeqAccess where
  | loadWord (sd : Nat) (addr : Nat)
  | storeWord (id : Nat) (addr : Nat) (v : Word)
  | stepWait (id : Nat) (base : Nat) (g0 g1 : Granule)
  | take (id : Nat) (base : Nat) (sd : Nat) (g : Granule)
  deriving DecidableEq, Repr, Inhabited

/-- SLEEP and SPIN (R137, R208, R209). -/
inductive Rest where
  | awake
  | spin
  | entering
  | asleep
  | leaving
  deriving DecidableEq, Repr, Inhabited

/-- A SLEEP or SPIN in progress: its mask, limit and destination, unheld clk since issue, and stager steps taken. -/
structure Nap where
  rest  : Rest := .awake
  mask  : Byte := 0
  limit : Nat := 0
  clk   : Nat := 0
  steps : Nat := 0
  sd    : Nat := 0
  deriving DecidableEq, Repr, Inhabited

/-- A flit in the skid buffer (R219) with the input and channel it came by. -/
structure SkidFlit where
  inp  : Port
  chan : Chan
  flit : Flit
  deriving DecidableEq, Repr, Inhabited

/-- The state of one tile. Defaults are its state after reset. -/
structure Tile where
  /-- TILE_ID.assigned and partition (Table 2.12) -/
  part      : Option PartId := none
  /-- partition start has left the hold root and has not reached the tile yet (R239) -/
  starting  : Bool := false
  /-- TILE_STAT.in_service: passed bring-up and mapped to a logical position (Table 2.13) -/
  inService : Bool := false
  /-- TILE_STAT.halted (Table 2.13) -/
  halted    : Bool := true
  /-- instruction store (R46): the words of the program; a word beyond them reads 0 -/
  prog      : List DWord := []
  /-- lines that the column has read in the governor's present window (R29) -/
  reads     : Nat := 0
  /-- issue plan (R236) -/
  plan      : List (BitVec 16) := []
  pc        : BitVec 11 := 0
  /-- s1–s31 (R48) -/
  sregs     : FMap Word := []
  /-- scalars whose write is pending (R118) -/
  pend      : List Nat := []
  /-- a0–a15 -/
  aregs     : FMap Range := []
  /-- return stack, depth 8 (R47) -/
  rets      : List (BitVec 11) := []
  /-- loop stack, depth 4, innermost first (R127) -/
  loops     : List LoopLevel := []
  /-- scoreboard, 24 entries (R49) -/
  sb        : List SbEntry := []
  nextId    : Nat := 0
  wait      : Wait := .none
  stepNo    : Word := 0
  /-- schedule clock and next due value (R236), and whether the waiting instruction has slipped (R237) -/
  sigma     : Nat := 0
  due       : Nat := 0
  slip      : Bool := false
  /-- lateness L and the latest maximum received (R213) -/
  late      : Word := 0
  maxIn     : Word := 0
  holdOut   : Bool := false
  /-- extra ladder clk not yet spent (R96) -/
  ladder    : Nat := 0
  /-- clk left of HOLDREQ, and whether a HOLDREQ is running (R141) -/
  holdreq   : Nat := 0
  holdreqOn : Bool := false
  /-- DRAM column data and side fields (R32) -/
  column    : Mem := []
  side      : Mem := []
  latch     : Line := {}
  readQ     : List ReadOp := []
  writeQ    : List WriteOp := []
  low       : List LowAccess := []
  /-- the line write that has begun at the tier ports (R56) -/
  writing   : Option Writing := none
  /-- clk for which the tier port has served no level below P1 while one waits, and per bank (R56, R57) -/
  starve    : Nat := 0
  bankStarve : FMap Nat := []
  /-- level after which the forced-grant rotation goes on (R56) -/
  lowRot    : Nat := 5
  refreshing : Bool := false
  owed      : Nat := 0
  deferMax  : Nat := 4
  /-- a due, undeferred or forced burst waits for a line boundary (R38) -/
  burstDue  : Bool := false
  rowQ      : List AOp := []
  lineBuf   : List LineIn := []
  accs      : FMap Acc := []
  vecQ      : List AOp := []
  pad       : Mem := []
  seqAcc    : List SeqAccess := []
  /-- ARRIVE_n, windows and CREDIT_n -/
  arrive    : FMap (BitVec 24) := []
  wins      : FMap Window := []
  credit    : FMap Byte := []
  wakeLatch : Byte := 0
  mailbox   : List (Granule × Granule) := []
  barSense  : Word := 0
  barPend   : Word := 0
  barMember : Word := 0
  arriving  : List Arriving := []
  descIn    : List DescArriving := []
  outbound  : List Outbound := []
  descQ     : List Granule := []
  sendQ     : List SendOp := []
  mgmtQ     : List Flit := []
  /-- input FIFOs, keyed 3 × port + channel -/
  fifo      : FMap (List Flit) := []
  skid      : List SkidFlit := []
  /-- input last served, keyed 3 × output + channel (R229), plus one -/
  rot       : FMap Nat := []
  /-- clk for which the head flit of an input FIFO has waited, keyed as fifo (R229) -/
  ages      : FMap Nat := []
  /-- local port's delivery FIFOs, keyed by channel (R45, R129) -/
  deliver   : FMap (List Flit) := []
  nap       : Nap := {}
  /-- counters of the tile frame, keyed by frame offset (R62) -/
  ctr       : FMap Word := []
  faultInfo : Word := 0
  firstSlip : Word := 0
  /-- initial CREDIT values and barrier membership of the image (Table 7.7) -/
  initCredit : List Byte := []
  deriving DecidableEq, Repr, Inhabited

/-- A tile after reset: halted, refresh_defer_max 4, everything else zero or empty (Tables 2.12 to 2.14; log entry 8). -/
def Tile.reset : Tile := {}

end Sys2Proof.Machine
end

