-- ==== Sys2Proof/Machine/RimState.lean ====
section
/-! DEFINITION. The state of the rim: request rows, steps, stream rings, page store, Roundhouse, links, hall time, host port
and recovery. -/
namespace Sys2Proof.Machine

/-! ### Steps (R268, Tables 8.9 and 8.10) -/

/-- One row entry of a manifest. -/
structure Entry where
  row     : Nat
  reqSeed : Word
  tok     : Nat
  /-- adapter slot and slot copy; none sets bit 31 of the slot word -/
  slot    : Option (Nat × Bool)
  copy    : Bool
  /-- 0 decode, 1 verify, 2 chunk -/
  kind    : Nat
  nPos    : Nat
  pageRoot : Word
  pageVersion : Word
  beta    : Word
  topP    : BitVec 16
  greedy  : Bool
  last    : Bool
  bucket  : Nat
  block   : Nat
  tokens  : List Word
  /-- a rebuild entry of R322 -/
  rebuild : Bool := false
  /-- its row is DRAINING (Table 8.10) -/
  draining : Bool := false
  deriving DecidableEq, Repr, Inhabited

/-- A closed manifest: header and body. -/
structure Manifest where
  step    : Nat
  close   : Nat
  bucket  : Nat
  first   : Bool
  entries : List Entry
  chunks  : List (List Word)
  deriving DecidableEq, Repr, Inhabited

/-- A step in flight (R403): its manifest, whether its body and notice have been sent since the last (re)start, and whether it
has been re-issued. -/
structure StepRun where
  man    : Manifest
  sent   : Bool := false
  again  : Bool := false
  deriving DecidableEq, Repr, Inhabited

/-! ### Pages (R296–R313) -/

/-- One page-table entry (Table 9.4). -/
structure Tent where
  page   : Nat
  shared : Bool := false
  sealed_ : Bool := false
  resume : Bool := false
  fill   : Nat := 0
  deriving DecidableEq, Repr, Inhabited

/-- A run of frame units that a row has set aside for page k of a layer (R507); `home` is a tile key. -/
structure Run where
  layer : Nat
  k     : Nat
  home  : Nat
  unit  : Nat
  units : Nat
  deriving DecidableEq, Repr, Inhabited

/-- A replacement of a table entry that is held (R313). -/
structure Edit where
  layer : Nat
  k     : Nat
  ent   : Tent
  deriving DecidableEq, Repr, Inhabited

/-- The page tables of one row or handle: table lines from `base`, one list of entries per layer, held replacements, and line
writes not yet acknowledged. -/
structure PageSet where
  base    : Nat := 0
  lines   : Nat := 0
  version : Word := 0
  tables  : FMap (List Tent) := []
  held    : List Edit := []
  acks    : Nat := 0
  deriving DecidableEq, Repr, Inhabited

/-- States of a data page (R300). -/
inductive PageSt where
  | filling
  | full
  | lost
  deriving DecidableEq, Repr, Inhabited

/-- A directory entry (R300), with the Platform slot that an open page holds. -/
structure PageInfo where
  layer : Nat
  k8    : Bool
  st    : PageSt
  refs  : Nat
  slot  : Option Nat
  deriving DecidableEq, Repr, Inhabited

/-- Frame units, a slot or table lines that are freed once step `after` and every earlier one has left the pipeline (R307).
`what`: 0 frame units of a home, 1 a slot of a home, 2 table lines. -/
structure Withheld where
  what  : Nat
  home  : Nat
  first : Nat
  count : Nat
  after : Nat
  /-- freed by a kill: zeroised before it returns (R471) -/
  wipe  : Bool := false
  deriving DecidableEq, Repr, Inhabited

/-- A prefix handle (R317). -/
structure Handle where
  gen     : BitVec 16 := 0
  live    : Bool := false
  owner   : Nat := 0
  part    : Nat := 0
  len     : Nat := 0
  weightGen : Nat := 0
  slot    : Option (Nat × Nat) := none
  seed    : Word := 0
  tokens  : List Word := []
  pages   : PageSet := {}
  /-- PARKED: in a cache partition of this module, or of another one named by its hall address -/
  parked  : Option (BitVec 16 × Nat) := none
  /-- the partition whose row it was made from (R470) -/
  origin  : Nat := 0
  /-- pages in cache partitions of this module that it still holds after a RECALL: only RETIRE frees them (R328) -/
  kept    : List (Nat × PageSet) := []
  deriving DecidableEq, Repr, Inhabited

/-! ### Request rows -/

/-- A token notice held for its record (R278). -/
structure Notice where
  tok   : Nat
  id    : Word
  flags : Byte
  deriving DecidableEq, Repr, Inhabited

/-- The prompt copy of a row (R263). -/
inductive Fetch where
  | idle
  | running
  | done
  | failed
  deriving DecidableEq, Repr, Inhabited

/-- A pass being judged (R287, R288): its first index, its drafts (none when it ran as a decode entry), the next position, and whether
delivery has ended. -/
structure Judge where
  b      : Nat
  drafts : List Word
  next   : Nat := 0
  good   : Nat := 0
  ended  : Bool := false
  deriving DecidableEq, Repr, Inhabited

/-- A request row: the registers of Table 8.1 and what the Signal Box keeps beside them. -/
structure Row where
  state    : Nat := 0
  gen      : BitVec 16 := 0
  refusal  : Nat := 0
  owner    : Nat := 0
  ctrl     : Word := 0
  adaptNone : Bool := true
  adaptSlot : Nat := 0
  adaptGen : Nat := 0
  deadline : DWord := 0
  promptLen : Word := 0
  maxLen   : Word := 0
  genLen   : Nat := 0
  lastSeq  : Nat := 0
  promptAddr : DWord := 0
  reqSeed  : Word := 0
  invTemp  : Word := 0
  topP     : BitVec 16 := 0
  stopId   : Word := 0xFFFFFFFF
  pfx      : Word := 0
  draftRow : Word := 0
  exportDest : DWord := 0
  pageRoot : Word := 0
  weightGen : Nat := 0
  doneCode : Nat := 0
  recovered : Bool := false
  overdue  : Bool := false
  missed   : Bool := false
  acceptTime : Nat := 0
  doneTime : Nat := 0
  /-- token log (R263): token and hall time low word -/
  log      : List (Word × Word) := []
  fetch    : Fetch := .idle
  /-- arrival order of the commit (R264) -/
  commitNo : Nat := 0
  withdraw : Bool := false
  cancel   : Bool := false
  /-- first position that no chunk entry has taken yet -/
  nextPos  : Nat := 0
  /-- positions that committed entries of closed manifests have appended (R312) -/
  closedTo : Nat := 0
  /-- holding slot (R278) -/
  hold     : Option Notice := none
  stalled  : Bool := false
  /-- R426: the next record carries flag bit 4 -/
  flag4    : Bool := false
  /-- done code of a completion record that waits for room (R282) -/
  finish   : Option Nat := none
  /-- LAST_SEQ at the cancel (R284) -/
  cancelAt : Nat := 0
  /-- a release written while a step is in flight (R288) -/
  releasing : Bool := false
  /-- hall time at which the row last became ready, and at which it became overdue (R272) -/
  since    : Option Nat := none
  overdueAt : Nat := 0
  /-- pages, set-aside runs and slot counts per layer (R303, R507) -/
  pages    : PageSet := {}
  runs     : List Run := []
  slots    : Nat := 0
  /-- lost pages being rebuilt: positions from first to last, in order (R322) -/
  rebuild  : List (Nat × Nat) := []
  /-- layer and index of the pages that those rebuild -/
  lostPages : List (Nat × Nat) := []
  /-- STEP policy: the old generation still pinned and the switch position (R349) -/
  oldGen   : Option (Nat × Nat) := none
  /-- its generations were retired with their pins when its partition was quarantined (R351) -/
  unpinned : Bool := false
  /-- speculation (R286, R287): kc, tokens not yet sent, delivered tokens since the last probe -/
  kc       : Nat := 0
  fresh    : List Word := []
  probes   : Nat := 0
  /-- the REQ that waits for its PROP: b and the hall time it was sent at -/
  asked    : Option (Nat × Nat) := none
  prop     : Option (List Word) := none
  judge    : Option Judge := none
  /-- a REQ for drafts went out for the next pass (R287) -/
  waited   : Bool := false
  /-- the b of the last REQ, while the draft may still be working on it (R284) -/
  working  : Option Nat := none
  /-- the last decode or verify entry: its first index, and its notices not judged yet (R287, R289) -/
  entryTok : Nat := 0
  notices  : Nat := 0
  /-- a draft row's open request (R285): b, k and the main row; and the first position it has not processed -/
  want     : Option (Nat × Nat × Nat) := none
  fed      : Nat := 0
  /-- a draft row's steps closed before its last REQ: the last of them, and their notices still to come, which sample a void log (R285) -/
  staleTo  : Nat := 0
  stale    : Nat := 0
  /-- export: pages not yet acknowledged, and the layer and index of those shipped (R277) -/
  exportsLeft : Nat := 0
  exported : List (Nat × Nat) := []
  /-- pages below this position are due in every layer; some may wait for a Platform slot (R305, R507) -/
  due      : Nat := 0
  /-- positions attached from a prefix handle, and the seed that computed them (R319, R323) -/
  attached : Nat := 0
  pfxSeed  : Word := 0
  /-- status that refused a page of this import row; zero for none (R326) -/
  shipRefused : Nat := 0
  deriving DecidableEq, Repr, Inhabited

/-! ### Stream rings and the scrub log (R279, R355) -/

/-- An unconsumed record: row, sequence number and its four words. -/
structure Rec where
  row  : Nat
  seq  : Nat
  data : List Word
  deriving DecidableEq, Repr, Inhabited

/-- A ring in host memory (Tables 8.12, 8.13); the scrub log uses the same form. -/
structure Ring where
  base     : DWord := 0
  enable   : Bool := false
  log2size : Nat := 6
  vector   : Nat := 0
  batch    : Nat := 1
  holdoff  : Nat := 0
  consumed : Word := 0
  shadow   : Option Word := none
  produced : Word := 0
  /-- records since the last interrupt, and the hall time at which the oldest of them was written -/
  quiet    : Nat := 0
  quietAt  : Nat := 0
  /-- the records that the ring's slots hold, oldest first -/
  recs     : List Rec := []
  deriving DecidableEq, Repr, Inhabited

/-! ### The Roundhouse (R340–R361) -/

/-- A weight generation of one copy; `ready` when it is verified and every line is written. -/
structure Gen where
  no       : Nat
  man      : ManifestData
  window   : Nat
  ready    : Bool := false
  /-- it has switched; and it is the one in service now -/
  switched : Bool := false
  current  : Bool := false
  policy   : Bool := false
  switchAt : Nat := 0
  late     : Bool := false
  deriving DecidableEq, Repr, Inhabited

/-- A slot generation of one copy. -/
structure SlotGen where
  no      : Nat
  man     : ManifestData
  window  : Nat
  ready   : Bool := false
  switched : Bool := false
  current : Bool := false
  /-- its slot was retired before it switched: it never switches (R359) -/
  dead    : Bool := false
  deriving DecidableEq, Repr, Inhabited

/-- An adapter slot (R356). -/
structure Slot where
  owner   : Option Nat := none
  count   : Nat := 0
  copy0   : Option SlotGen := none
  copy1   : Option SlotGen := none
  /-- RETIRE_ADAPTER asked, not yet acted on; or acted on, with no generation loaded and switched since -/
  retiring : Bool := false
  retired : Bool := false
  deriving DecidableEq, Repr, Inhabited

/-- Where a shard of a running load stands. -/
inductive ShardSt where
  | fetching
  | hashing
  | rehash
  | good
  deriving DecidableEq, Repr, Inhabited

/-- One shard of a running load: attempts so far, source in use, state, and the bytes of this fetch while they are hashed. -/
structure ShardRun where
  st       : ShardSt
  attempts : Nat := 1
  source   : Nat := 0
  bytes    : List Byte := []
  deriving DecidableEq, Repr, Inhabited

/-- A running LOAD_GEN (no slot) or LOAD_ADAPTER. -/
structure Load where
  part   : Nat
  slot   : Option Nat
  copy   : Bool
  man    : ManifestData
  shards : List ShardRun
  /-- lines handed to the tiles and not yet written -/
  lines  : Nat := 0
  deriving DecidableEq, Repr, Inhabited

/-- A running LOAD_IMAGE: in its checks, or waiting for the end of the quarantine. -/
structure ImageRun where
  part : Nat
  img  : ImageData
  quarantined : Bool := false
  deriving DecidableEq, Repr, Inhabited

/-- The RND page of one window (Tables 10.11 and 10.12). -/
structure RndWin where
  busy    : Bool := false
  status  : Byte := 0
  part    : Word := 0
  flags   : Word := 0
  addr    : DWord := 0
  len     : Word := 0
  table   : DWord := 0
  switchAt : DWord := 0
  total   : Word := 0
  done    : Word := 0
  result  : Word := 0
  load    : Option Load := none
  image   : Option ImageRun := none
  /-- the generation that the last LOAD_GEN or LOAD_ADAPTER of the window made: partition, slot, copy, number (R360) -/
  made    : Option (Nat × Option Nat × Bool × Nat) := none
  deriving DecidableEq, Repr, Inhabited

/-- A master in the rim stacks (R340): verified once its digest has matched. -/
structure Master where
  digest : BitVec 384
  bytes  : List Byte
  good   : Bool
  /-- the rim stack that holds it -/
  home   : Nat := 0
  deriving DecidableEq, Repr, Inhabited

/-- A repair of a resident shard (R353): partition, adapter slot if any, copy, shard, and the window of its report (R354). The badger starts
one; so does a recovery, or a rim stack's error, whose master is not good and is fetched again. -/
structure Repair where
  part  : Nat
  slot  : Option Nat
  copy  : Bool
  shard : Nat
  digest : BitVec 384 := 0
  /-- the master failed and is refetched -/
  refetch : Bool
  /-- the wafer copy failed -/
  lines   : Bool
  /-- a recovery waits for the master (Table 12.1, Table 12.8) -/
  recovery : Bool := false
  /-- the fetch of the master: attempts so far, source in use, the bytes that are hashed -/
  attempts : Nat := 1
  source  : Nat := 0
  bytes   : List Byte := []
  /-- lines handed to the tiles and not yet written -/
  left    : Option Nat := none
  start : Nat
  stop  : Nat
  deriving DecidableEq, Repr, Inhabited

/-- A suspect-window report (R354, Table 10.8). -/
structure Report where
  part   : Nat
  adapter : Bool
  shard  : Nat
  gen    : Word
  no     : Nat
  start  : Nat
  stop   : Nat
  rows   : List Nat
  /-- entries of it that are written already -/
  written : Nat := 0
  deriving DecidableEq, Repr, Inhabited

/-- One row carried by a step, as the reports look back on it (R354). -/
structure Carried where
  part  : Nat
  step  : Nat
  close : Nat
  copy  : Bool
  slot  : Option (Nat × Bool)
  row   : Nat
  deriving DecidableEq, Repr, Inhabited

/-- The Roundhouse beyond its windows. -/
structure Roundhouse where
  masters  : List Master := []
  interval : Nat := 600
  log      : Ring := { log2size := 4 }
  reports  : List Report := []
  reportNo : Nat := 0
  repairs  : List Repair := []
  /-- last good scrub: partition, slot, copy, shard, hall time -/
  scrubs   : List (Nat × Option Nat × Bool × Nat × Nat) := []
  carried  : List Carried := []
  /-- the 64 hashing engines: window and shard that each hashes (R340) -/
  engines  : FMap (Option (Nat × Nat)) := []
  /-- the badger's present interval: its start in hall time, and the shards it has visited in it (R352) -/
  roundAt  : Nat := 0
  visited  : List (Nat × Option Nat × Bool × Nat) := []
  deriving DecidableEq, Repr, Inhabited

/-! ### The KVP page (R330) -/

/-- A running CREATE, PARK or RECALL: within the module it waits for the lines of handle `handle` and then takes `pages` as the
handle's, in partition `part`; a PARK to another module waits for the acknowledgements of the pages `left`. -/
structure KvRun where
  op     : Nat
  handle : Nat
  part   : Nat
  hall   : BitVec 16
  away   : Bool := false
  pages  : PageSet := {}
  left   : List (Nat × Nat) := []
  deriving DecidableEq, Repr, Inhabited

/-- The KVP page of one window (Tables 9.9 and 9.10). -/
structure KvWin where
  busy   : Bool := false
  status : Byte := 0
  part   : Word := 0
  handle : Word := 0
  row    : Word := 0
  len    : Word := 0
  dest   : DWord := 0
  result : Word := 0
  run    : Option KvRun := none
  deriving DecidableEq, Repr, Inhabited

/-- A page that arrived by a ship message and whose lines are being written: its number, the import row, the lines left, the
acknowledgements due and what they answer (R326, R327). -/
structure Landing where
  no    : Nat
  row   : Option Nat
  left  : Nat
  acks  : Nat := 1
  hall  : BitVec 16
  part  : Nat
  ack   : ShipAck
  deriving DecidableEq, Repr, Inhabited

/-- A page of another module's handle, parked here: its module and handle, its layer and index, its id (R327, R328). -/
structure Guest where
  hall   : BitVec 16
  handle : Nat
  layer  : Nat
  k      : Nat
  page   : Nat
  deriving DecidableEq, Repr, Inhabited

/-- A ship message sent and not yet acknowledged (R327): the partition that sent it, the message, its destination, the hall time it was last
sent at, the attempts, and the window of the command that it belongs to. -/
structure Shipped where
  part  : Nat
  msg   : ShipMsg
  hall  : BitVec 16
  at_   : Nat
  tries : Nat := 1
  window : Option Nat := none
  deriving DecidableEq, Repr, Inhabited

/-! ### Links and hall time -/

/-- What a port sends in one cell: a cell of Table 11.3, an idle one, a time cell, or a NAK naming a spoiled cell; `retx`: flags bit 2 of the
last three (R387). -/
inductive TxCell where
  | data (c : Cell)
  | idle (retx : Bool)
  | time (depth : Nat) (hall : BitVec 16) (heard : Option (BitVec 16 × Int)) (retx : Bool := false)
  | nak (frame slot idx : Nat) (retx : Bool := false)
  deriving DecidableEq, Repr, Inhabited

/-- A slot entry of one table (Table 11.15). -/
structure SlotEntry where
  kind   : BitVec 2 := 0
  rxPort : BitVec 6 := 0
  rxSlot : BitVec 10 := 0
  deriving DecidableEq, Repr, Inhabited

/-- A cell sent in the last 64 slots (R387): frame bits, slot, index. -/
structure SentCell where
  frame : Nat
  slot  : Nat
  idx   : Nat
  age   : Nat := 0
  cell  : TxCell
  /-- check bits generated for the words of a cell of Table 11.3, 7 each -/
  check : List (BitVec 7) := []
  deriving DecidableEq, Repr, Inhabited

/-- Where a cell goes at its receiver, as far as that can be read: to a partition of the module, or through it (R379, R380). -/
inductive CellDest where
  | part (p : BitVec 4)
  | thru
  | unknown
  deriving DecidableEq, Repr, Inhabited

/-- What a receiver holds in the order of arrival: the place of a spoiled cell that is due again, by its first place, or a later cell, with the slot
that it came in (R387). -/
inductive HeldCell where
  | due (frame slot idx : Nat) (dest : CellDest)
  | cell (slot : Nat) (c : Cell)
  deriving DecidableEq, Repr, Inhabited

/-- A cell named in a NAK and not yet delivered again, by the place that it was first spoiled in, with the times it has been spoiled. -/
structure Spoiled where
  frame : Nat
  slot  : Nat
  idx   : Nat
  times : Nat := 1
  deriving DecidableEq, Repr, Inhabited

/-- A received cell held for through-running, under its slot: the slot number of its arrival, counted from hall time zero, and the cell (R379). -/
structure Thru where
  slot  : Nat
  since : Nat := 0
  cell  : Cell
  deriving DecidableEq, Repr, Inhabited

/-- A link port (Tables 11.13–11.15). -/
structure LinkPort where
  /-- 0 DISABLED, 1 IDLE, 2 TRAINING, 3 UP, 4 FAILED -/
  state   : Nat := 0
  lanes   : Byte := 0
  enable  : Bool := true
  slotSel : Word := 0
  swapFrame : DWord := 0
  /-- the frame at whose start a swap written late takes place (Table 11.6); 0 where it was written in time -/
  swapLate : Nat := 0
  active  : Bool := false
  tableA  : FMap SlotEntry := []
  tableB  : FMap SlotEntry := []
  /-- slot ownership (R375): owned slots and their owner -/
  owners  : FMap (Option Nat) := []
  delay   : Word := 0
  peer    : Word := 0
  /-- the peer's slot 0 marker heard last: its frame bits and its receive time, in 2^−16 ns; and the frames of this port's last markers,
  newest first (R369) -/
  heard   : Option (BitVec 16 × Int) := none
  markers : List Nat := []
  /-- depth last advertised by the peer (R370) -/
  peerDepth : Nat := 255
  ctr     : FMap Word := []
  txCells : DWord := 0
  rxCells : DWord := 0
  /-- outbound queue per partition, of at most 1,024 cells, and the cells of messages that wait in the rim for room in it (R383) -/
  queues  : FMap (List Cell) := []
  backlog : FMap (List Cell) := []
  /-- management cells (R378): retransmissions; time cells and NAKs; Sufin, Roundhouse and hall-fetch messages (0, 1, 2), and the one of these
  three whose message goes next or is under way -/
  retxQ   : List TxCell := []
  ctlQ    : List TxCell := []
  mgmtQ   : FMap (List (List Cell)) := []
  turn    : Nat := 0
  /-- frame and slot of the slot last opened, plus one -/
  opened  : Nat := 0
  sent    : List SentCell := []
  /-- frame bits and slot of the last 64 slots sent, newest first: what is not in `sent` of them was an idle cell -/
  lastSlots : List (Nat × Nat) := []
  /-- spoiled cells in the order in which they are sent again, and what is held behind them -/
  spoiled : List Spoiled := []
  waiting : List HeldCell := []
  thru    : List Thru := []
  /-- SEND granules still due of tile messages under way from this port, by partition, channel and target (`headKey`) -/
  heads   : FMap Nat := []
  /-- calibration user tap offsets in force since the last training -/
  taps    : FMap (BitVec 16) := []
  deriving DecidableEq, Repr, Inhabited

/-- The frame at whose start the armed tables change roles (R376, Table 11.6). -/
def LinkPort.swapAt (L : LinkPort) : Nat := max L.swapFrame.toNat L.swapLate

/-- The hall time unit (Tables 11.10–11.12). -/
structure HallUnit where
  /-- hall time in 2^−16 ns, and the remainder of the clk accumulation; the correction still to be made by slewing (R366). Both in parts
  of a unit, 47,000,000 to a unit -/
  now      : Nat := 0
  rem      : Nat := 0
  slew     : Int := 0
  /-- 0 FREE, 1 FREQ_LOCK, 2 DISCIPLINED, 3 HOLDOVER -/
  state    : Nat := 0
  refOn    : Bool := false
  timetable : Bool := false
  depth    : Nat := 0xFF
  upstream : Nat := 0
  root     : Bool := false
  holdover : Nat := 40
  addr     : BitVec 16 := 0
  epochNext : DWord := 0
  offset   : BitVec 32 := 0
  /-- offsets of the last exchanges on the upstream port, newest first -/
  offsets  : List Int := []
  /-- it has stepped on leaving FREQ_LOCK (Table 11.5) -/
  stepped  : Bool := false
  /-- HOLDOVER entered at, ns -/
  since    : Nat := 0
  deriving DecidableEq, Repr, Inhabited

/-! ### Recovery (ch. 12) -/

/-- An event record (Table 12.3). -/
structure FltRec where
  time   : Nat
  cls    : Byte
  part   : Option Nat
  region : Option Nat
  tile   : Word
  detail : Byte
  state  : Nat := 0
  outcome : Nat := 0
  step   : Nat
  loc    : Word
  /-- the queue slot that it lies in while it is queued (R496) -/
  slot   : Nat := 0
  deriving DecidableEq, Repr, Inhabited

/-- An event that its unit keeps for a controller in reset: hall time and oldest unretired step at its detection (R408, R422). -/
structure HeldEvent where
  ev   : ErrEvent
  time : Nat
  step : Nat
  deriving DecidableEq, Repr, Inhabited

end Sys2Proof.Machine
end

