-- ==== Sys2Proof/Machine/PlantState.lean ====
section
/-! DEFINITION. The state of the governor, sensing and wear (ch. 13), of bring-up, security and calibration (ch. 14), and of the
TWN page. -/
namespace Sys2Proof.Machine

/-! ### Power, heat, sensing and wear -/

/-- A unit that carries temperature sensors: region 12 × gx + gy, or rim stack 144 + n (R435–R441, R447, R448). Temperatures in
1/16 °C; none for no plausible reading. -/
structure Heat where
  a       : Option Int := none
  b       : Option Int := none
  lower   : Option Int := none
  upper   : Option Int := none
  /-- region power in µW -/
  power   : Nat := 0
  /-- governing reading, and the same with negative user offsets taken as zero (R437, R474) -/
  gov     : Option Int := none
  guard   : Option Int := none
  split   : Bool := false
  /-- milliseconds in a row with more than 8 °C between the junctions -/
  apart   : Nat := 0
  /-- implausible readings of the last 16 ms, newest first (R439) -/
  bad     : List Nat := []
  implausible : Word := 0
  parked  : Bool := false
  /-- a stack that failed or was parked (R401) -/
  out     : Bool := false
  /-- θ_r in K/W; none: the factory value (R441) -/
  theta   : Option Rat := none
  /-- sums since the last cap: readings, T_r − T_in, power -/
  n       : Nat := 0
  sumDiff : Int := 0
  sumPower : Nat := 0
  /-- cycle detection: the maximum, and the minimum that follows a fall of 20 °C (R447) -/
  top     : Option Int := none
  bottom  : Option Int := none
  cyc20   : Word := 0
  cyc40   : Word := 0
  cyc60   : Word := 0
  /-- it has been in SENSOR_SPLIT (Table 13.10) -/
  wasSplit : Bool := false
  /-- W in permille, code of its largest term, and the hourly W of 30 days, newest first (R448, R449) -/
  wear    : Rat := 0
  term    : Nat := 0
  hist    : List Rat := []
  /-- VCORE_TRIM; none: the factory trim (Table 13.12) -/
  trim    : Option Byte := none
  deriving DecidableEq, Repr, Inhabited

/-- The power governor (R441–R446, Table 13.14). -/
structure Gov where
  capUser : Word := 0
  p1ms    : Nat := 0
  p1s     : Nat := 0
  cap     : Rat := 25000
  /-- D in 0.1 % -/
  duty    : Nat := 280
  /-- milliseconds in a row with P_1ms above the limit -/
  beyond    : Nat := 0
  busA    : Bool := false
  busB    : Bool := false
  tin     : Int := 640
  flowA   : Int := 0
  flowB   : Int := 0
  lowFlow : Nat := 0
  coolantLow : Bool := false
  /-- throttle level, the unit that carries it, and the hottest unit of the last reading -/
  level   : Nat := 0
  carrier : Option Nat := none
  hottest : Option Nat := none
  sumRim  : Nat := 0
  n       : Nat := 0
  shutdown : Bool := false
  deriving DecidableEq, Repr, Inhabited

/-- The sense converter (R450–R455, Table 13.15). Channels 0 to 31 are SE n, 32 to 39 DIFF n − 32. -/
structure Sense where
  cfg      : Word := 0
  scanSe   : Word := 0
  scanDiff : Word := 0
  rgnSel   : Word := 0
  shCfg    : Option Word := none
  shSe     : Option Word := none
  shDiff   : Option Word := none
  shRgn    : Option Word := none
  /-- a CFG_APPLY waits for the running scan to end -/
  applying : Bool := false
  /-- channels still to convert, in order, and whether the first has been sampled -/
  queue    : List Nat := []
  begun    : Bool := false
  scans    : Nat := 0
  /-- hall time of the first sample of the running scan, in 2^−16 ns, and SNS_STAMP -/
  first    : Nat := 0
  stamp    : DWord := 0
  results  : FMap Word := []
  /-- hall time of the last trigger other than a self-trigger, ns -/
  lastEdge : Nat := 0
  deriving DecidableEq, Repr, Inhabited

/-- The AGE page beyond the units (R449, R458). -/
structure Age where
  days : Nat := 0xFFFF
  warn : Word := 365
  deriving DecidableEq, Repr, Inhabited

/-! ### Bring-up and security -/

/-- A fault map entry (Table 14.3): kind 1 tile, 2 region. -/
structure FaultEntry where
  kind  : Nat
  cause : Nat
  a     : Nat
  b     : Nat
  time  : Nat
  deriving DecidableEq, Repr, Inhabited

/-- A line of SVC_TX (Table 14.11): of the boot log, by the phase of Table 14.12 that it tells, or of an FLT record, by the record's
number. The spec gives a line no text (log entry 120). -/
inductive SvcLine where
  | boot (phase : Nat)
  | record (number : Word)
  deriving DecidableEq, Repr, Inhabited

/-- The BRU page and bring-up (Tables 14.12 and 14.13). -/
structure Bru where
  done     : Bool := false
  busy     : Bool := true
  phase    : Nat := 0
  ring     : Nat := 0
  status   : Nat := 0
  sel      : Word := 0
  ms       : Word := 0
  factory  : List FaultEntry := []
  field    : List FaultEntry := []
  clearField : Bool := false
  /-- hall time at which the bring-up or warm restart started -/
  since    : Nat := 0
  /-- a WARM waits for quarantines to end -/
  warmWaits : Bool := false
  /-- regions come up from this ring on -/
  next     : Nat := 0
  /-- the converter refuses forced edges (R451) -/
  forceOff : Bool := false
  /-- regions kept out until the next bring-up, for want of room in the field map (R463) -/
  kept     : List Nat := []
  /-- MOD_ALERT_N is held low by CAL_FAIL or recovery mode, and the hall time in ns up to which a pulse holds it low -/
  alert    : Bool := false
  pulse    : Nat := 0
  /-- lines that have gone out on SVC_TX since the reset, oldest first -/
  svc      : List SvcLine := []
  deriving DecidableEq, Repr, Inhabited

/-- An enrolled key (R468): usage bit 0 builds, bit 1 models and adapters. -/
structure Key where
  id    : BitVec 128
  usage : Byte
  deriving DecidableEq, Repr, Inhabited

/-- What ATTEST measures at the end of a bring-up (Table 14.1): the running slot's image, the enrolment table and the fault maps. -/
structure Measured where
  firmware  : BitVec 384
  enrolment : BitVec 384
  maps      : BitVec 384
  deriving DecidableEq, Repr, Inhabited

/-- The secure store: enrolment table, firmware slots, fuses (R465–R468). -/
structure Security where
  keys    : FMap (Option Key) := []
  revoked : List (BitVec 128) := []
  counter : DWord := 0
  slotA   : Option FwImage := some { verifies := true, secver := 0, digest := 0 }
  slotB   : Option FwImage := none
  select  : Bool := false
  running : Bool := false
  fuses   : Nat := 0
  /-- measurements of the last bring-up; none before it has completed -/
  meas    : Option Measured := none
  deriving DecidableEq, Repr, Inhabited

/-- The SEC page of one window (Table 14.14). -/
structure SecWin where
  busy   : Bool := false
  status : Byte := 0
  addr   : DWord := 0
  len    : Word := 0
  nonce  : FMap Word := []
  deriving DecidableEq, Repr, Inhabited

/-- The CAL page (Tables 15.14 and 15.15): user offsets by item, those in force, those in flash; 65,536 × kind + index. -/
structure Cal where
  sel     : Word := 0
  user    : FMap Int := []
  inForce : FMap Int := []
  flash   : FMap Int := []
  /-- VCORE trims in flash, by region -/
  flashTrim : FMap Int := []
  busy    : Bool := false
  status  : Byte := 0
  unsaved : Bool := false
  deriving DecidableEq, Repr, Inhabited

/-- The TWN page of one window (Table 15.16). -/
structure TwnWin where
  sel    : Word := 0
  addr   : Word := 0
  busy   : Bool := false
  status : Byte := 0
  len    : Word := 0
  dataIn : Word := 0
  data   : List Byte := []
  deriving DecidableEq, Repr, Inhabited

end Sys2Proof.Machine
end

