-- ==== Sys2Proof/Machine/State.lean ====
section
/-! DEFINITION. The state of the LW-9400 as plain data, its state after reset, and the reasons a command can stop. -/
namespace Sys2Proof.Machine

/-- Why a command stops the machine. No meaning of this model raises one: the spec gives every command an effect. -/
inductive Fault where
  /-- Raised by nothing in this model. Safe: a stop proves no claim about a next state. -/
  | unreachable
  deriving DecidableEq, Repr

/-- Why a command has no meaning. -/
inductive Refusal where
  /-- Raised by an arm of exec whose command is not modelled yet. Safe: no next state is claimed. -/
  | notModelled (mnemonic : String)
  deriving DecidableEq, Repr

/-- The block state of one page header in one window (Tables 15.2 and 15.3). -/
structure Header where
  evtStat   : Word := 0
  evtEn     : Word := 0
  routeEn   : Bool := false
  routeHdr  : Bool := false
  vector    : BitVec 6 := 0
  cfgReject : Bool := false
  badWrite  : Bool := false
  errValid  : Bool := false
  errCause  : BitVec 3 := 0
  errOffset : BitVec 12 := 0
  errCount  : Word := 0
  deriving DecidableEq, Repr, Inhabited

/-- A partition. Defaults are its state with no image loaded. -/
structure Partition where
  /-- BUILD_STAT (Table 7.12): refusal code, section, state 0 none, 1 checking, 2 loaded, 3 refused -/
  refusal   : Nat := 0
  section_  : Nat := 0
  bstate    : Nat := 0
  exact     : Bool := false
  divAll    : Bool := false
  /-- PRT_CFG rectangle and role 3 with no image (Table 15.9) -/
  role      : Nat := 3
  gx0       : Nat := 0
  gy0       : Nat := 0
  width     : Nat := 0
  height    : Nat := 0
  /-- ARITH.mode (Table 3.15) and SEED (Table 3.16) -/
  arith3100 : Bool := false
  seed      : DWord := 0
  entry     : TileAddr := default
  gate      : TileAddr := default
  /-- the hold root: whether the run goes on, the maximum M, and M extended to 64 bits (Table 6.6) -/
  running   : Bool := false
  /-- fault-capture hold (R402): every tile is frozen -/
  frozen    : Bool := false
  rootMax   : Word := 0
  holdClk   : DWord := 0
  /-- HOLD_STAT flags (Table 6.5) -/
  hsSlip    : Bool := false
  hsLadder  : Bool := false
  hsHoldreq : Bool := false
  hsGovernor : Bool := false
  hsFault   : Bool := false
  /-- release sense of each barrier's tree (R140) -/
  release   : Word := 0
  /-- flits that have left by the rim gate, oldest first (R227) -/
  rimIn     : List (Chan × Flit) := []
  /-- flits that wait in the rim to enter by the gate, oldest first (R227, R269) -/
  rimOut    : List (Chan × Flit) := []
  /-- column lines that wait in the rim, of the Signal Box's page moves and of the Roundhouse, whether the Roundhouse's turn is next, and
  the lines that are under way in the fabric, oldest first (R227, R302, R324, R341) -/
  pageOut   : List Flit := []
  weightOut : List Flit := []
  lineTurn  : Bool := false
  lineSent  : List Flit := []
  /-- owners of page lines written whose acknowledgement is on its way to the rim (R302) -/
  lineAcks  : List Nat := []
  /-- pages that have arrived from other modules and are being written, and pages of their handles that are parked here (R326, R328) -/
  landings  : List Landing := []
  landNo    : Nat := 0
  guests    : List Guest := []
  /-- hold horizon H (R216, R418) -/
  horizon   : Nat := 0
  /-- the accepted build image (R249, R401) -/
  image     : Option ImageData := none
  /-- next step number, step credits, steps in flight oldest first, bit 0 of the next manifest's flags (R268, R270, R403, R406) -/
  stepNo    : Nat := 1
  credits   : Nat := 1
  inflight  : List StepRun := []
  firstAfter : Bool := false
  /-- clk that must pass before the next manifest may close (R24) -/
  spacing   : Nat := 0
  /-- clk that must pass before the next manifest may be sent: re-issued steps keep the interval too (R24) -/
  sendGap   : Nat := 0
  /-- a CFG_APPLY asks for an idle boundary (Table 15.5) -/
  asked     : Bool := false
  /-- SERVE, SPEC with its shadow, KVCFG.window and fmt (Tables 8.17, 8.18, 9.11) -/
  serve     : Word := 0x1200
  spec      : Word := 0x41000FA0
  specShadow : Option Word := none
  kvWindow  : Nat := 2
  kvFmt     : Bool := false
  /-- counters of Table 15.8 by page offset -/
  ctr       : FMap DWord := []
  /-- weight generations (R345) -/
  genCount  : Nat := 0
  copy0     : Option Gen := none
  copy1     : Option Gen := none
  policy    : Bool := false
  slots     : FMap Slot := []
  /-- page directory by page id, and what freed pages still hold back (R300, R307) -/
  dir       : FMap (Option PageInfo) := []
  withheld  : List Withheld := []
  /-- RECOVER: 0 running, 1 held for replay, 2 held for diversion, 3 halted safe; cause; lost region (Table 12.9) -/
  rstate    : Nat := 0
  cause     : Nat := 0
  lost      : Option Nat := none
  /-- a recovery is running (R409); the region it diverts round, and the hall time of detection -/
  recovering : Bool := false
  divert    : Option Nat := none
  detected  : Nat := 0
  measuring : Bool := false
  /-- recoveries in a row, and the step that must leave the pipeline to end the row (R407) -/
  streak    : Nat := 0
  streakStep : Nat := 0
  /-- records of a partition that halted safe, whose repairs its restart still makes (R413, R424) -/
  owed      : List FltRec := []
  /-- in quarantine (R470) -/
  quarantine : Bool := false
  deriving DecidableEq, Repr, Inhabited

/-- A region. Defaults are its state after cold bring-up. -/
structure Region where
  /-- refresh counter (R37), and whether T is 2,048 -/
  refresh   : Nat := 0
  hot       : Bool := false
  /-- the next T, taken at a multiple of 4,096 clk (R37) -/
  hotNext   : Bool := false
  /-- route table of its routers: code by destination region (Table 7.1) -/
  routes    : FMap (BitVec 3) := []
  /-- tiles waiting for the gating stager: exits and entries in request order (R208) -/
  exits     : List TileAddr := []
  entries   : List TileAddr := []
  /-- bursts that have started in this clk (R37) -/
  starts    : Nat := 0
  /-- local columns whose spare tile's column is in a burst, or waits for its start (R17, R37) -/
  spareOn   : List Nat := []
  spareDue  : List Nat := []
  /-- clk until the gating stager may grant its next step (R207) -/
  gap       : Nat := 0
  /-- passed bring-up and not lost since (R18, R414, R462) -/
  inService : Bool := false
  /-- class that lost it (Table 12.6), zero for none -/
  lostBy    : Nat := 0
  /-- feeds A and B of its clock have stopped, feed B is the live one, and switches between feeds (R416) -/
  deadA     : Bool := false
  deadB     : Bool := false
  onB       : Bool := false
  feedSwitch : Word := 0
  /-- mapped-out tiles, as (local column, local physical row) (R17) -/
  mapped    : List (Nat × Nat) := []
  deriving DecidableEq, Repr, Inhabited

/-- A virtual interface (Tables 8.19 and 15.11). -/
structure Vif where
  rowBase   : Nat := 0
  rowCount  : Nat := 0
  rowQuota  : Nat := 0
  partMask  : BitVec 16 := 0
  enabled   : Bool := false
  d3hot     : Bool := false
  busMaster : Bool := false
  records   : DWord := 0
  flrCount  : Word := 0
  deriving DecidableEq, Repr, Inhabited

/-- What an entry of the MSI-X table holds beside its mask bit: message address and data (R391). -/
structure Msix where
  addr : DWord := 0
  data : Word := 0
  deriving DecidableEq, Repr, Inhabited

/-- The host port. -/
structure HostPort where
  /-- MSI-X messages sent: function, vector and what its table entry held, oldest first -/
  sent      : List (Nat × Nat × Msix) := []
  /-- the MSI-X tables in BAR2, keyed 64 × function + vector -/
  msix      : FMap Msix := []
  /-- vectors unmasked in BAR2 (masked at reset, log entry 9) and pending bits, keyed 64 × function + vector (R391) -/
  unmasked  : FMap Bool := []
  pended    : FMap Bool := []
  /-- data link active, and PCI_STAT's speed, width and flit mode (Table 11.16) -/
  up        : Bool := false
  wasUp     : Bool := false
  speed     : Nat := 0
  width     : Nat := 0
  flit      : Bool := false
  retrains  : Word := 0
  rewrites  : Word := 0
  /-- posted writes to host memory: address and bytes, oldest first (R394) -/
  posted    : List (Nat × List Byte) := []
  deriving DecidableEq, Repr, Inhabited

/-- The whole module. -/
structure State where
  /-- commands that wait, first in, first out -/
  pending : List Instr
  /-- the model's own counter behind free values (log entry 7) -/
  free    : Nat
  tiles   : FMap Tile
  parts   : FMap Partition
  regions : FMap Region
  headers : FMap Header
  vifs    : FMap Vif
  host    : HostPort
  rows    : FMap Row
  /-- commits that have arrived (R264) -/
  commits : Nat
  /-- stream rings, keyed 32 × window + ring -/
  rings   : FMap Ring
  handles : FMap Handle
  kvp     : FMap KvWin
  shipped : List Shipped
  rnd     : FMap RndWin
  house   : Roundhouse
  ports   : FMap LinkPort
  hall    : HallUnit
  /-- CFG_GEN by page number (R490) -/
  cfgGen  : FMap Word
  /-- bring-up, secure store, SEC pages, calibration, TWN pages; event queue, history by slot, records completed and lost (R408, R496), and regions' strikes (R410) -/
  bru     : Bru
  sec     : Security
  secWin  : FMap SecWin
  cal     : Cal
  twn     : FMap TwnWin
  fltQ    : List FltRec
  fltHist : FMap (Option FltRec)
  fltDone : Word
  fltLost : Word
  strikes : FMap (Option (Nat × Nat))
  /-- tiles of a region's strikes (Table 12.6) -/
  struck  : FMap (List Nat)
  /-- units with sensors, governor, converter, wear (ch. 13) -/
  heat    : FMap Heat
  gov     : Gov
  sense   : Sense
  age     : Age
  /-- low words written and high words captured, keyed 2^28 × window + offset of the low word (R10); captured FLT records (R497) -/
  heldLow : FMap (Option Word)
  capHigh : FMap (Option Word)
  capFlt  : FMap (List (Option Word))
  /-- records lost to a full queue and not yet told (R411); the controller is in reset, and what units hold for it (R422) -/
  untold  : Nat
  sufinDown : Bool
  heldEvents : List HeldEvent
  /-- recovery mode (R465) -/
  recovery : Bool
  deriving DecidableEq, Repr

/-- The module after reset. -/
def State.reset : State where
  pending := []
  free    := 0
  tiles   := []
  parts   := []
  regions := []
  headers := []
  vifs    := []
  host    := {}
  rows    := []
  commits := 0
  rings   := []
  handles := []
  kvp     := []
  shipped := []
  rnd     := []
  house   := {}
  ports   := []
  hall    := {}
  cfgGen  := []
  bru     := {}
  sec     := {}
  secWin  := []
  cal     := {}
  twn     := []
  fltQ    := []
  fltHist := []
  fltDone := 0
  fltLost := 0
  strikes := []
  struck  := []
  heat    := []
  gov     := {}
  sense   := {}
  age     := {}
  heldLow := []
  capHigh := []
  capFlt  := []
  untold  := 0
  sufinDown := false
  heldEvents := []
  recovery := false

end Sys2Proof.Machine
end

