-- ==== Sys2Proof/Machine/Ops.lean ====
section
/-! DEFINITION. The named operations over the state that every family of commands shares: places, page events, messages,
tile faults. -/
namespace Sys2Proof.Machine

/-! ### Places -/

/-- A tile address word (R112), which also keys the tile tables. -/
def tileKey (t : TileAddr) : Nat := t.col.val * 512 + t.row.val

/-- The tile that an address word names; none for a set bit in [31:18] or a place beyond the logical range (R112). -/
def tileAt (v : Nat) : Option TileAddr :=
  if h : v / 512 < 336 ∧ v % 512 < 324 then some ⟨⟨v / 512, h.1⟩, ⟨v % 512, h.2⟩⟩ else none

/-- The region of a logical tile (R16, R225). -/
def regionOf (t : TileAddr) : Nat := (t.col.val / 28) * 12 + t.row.val / 27

/-- The same as a region identifier. -/
def regionIdOf (t : TileAddr) : RegionId := ⟨regionOf t, by
  have h1 := t.col.isLt
  have h2 := t.row.isLt
  simp only [regionOf]
  omega⟩

def State.tile (s : State) (t : TileAddr) : Tile := FMap.get Tile.reset s.tiles (tileKey t)
def State.setTile (s : State) (t : TileAddr) (x : Tile) : State :=
  { s with tiles := FMap.set Tile.reset s.tiles (tileKey t) x }
def State.part (s : State) (p : Nat) : Partition := FMap.get {} s.parts p
def State.setPart (s : State) (p : Nat) (x : Partition) : State := { s with parts := FMap.set {} s.parts p x }
def State.region (s : State) (r : Nat) : Region := FMap.get {} s.regions r
def State.setRegion (s : State) (r : Nat) (x : Region) : State := { s with regions := FMap.set {} s.regions r x }
def State.vif (s : State) (n : Nat) : Vif := FMap.get {} s.vifs n
def State.setVif (s : State) (n : Nat) (x : Vif) : State := { s with vifs := FMap.set {} s.vifs n x }

/-- The header of page `page` in window `w` (R483). -/
def State.header (s : State) (w page : Nat) : Header := FMap.get {} s.headers (w * 65536 + page)
def State.setHeader (s : State) (w page : Nat) (x : Header) : State :=
  { s with headers := FMap.set {} s.headers (w * 65536 + page) x }

/-- The partition of a tile, when it belongs to a loaded one. -/
def State.partOf (s : State) (t : TileAddr) : Partition :=
  match (s.tile t).part with
  | some p => s.part p.val
  | none => {}

/-- Two tiles of one partition (R112). -/
def samePart (s : State) (t u : TileAddr) : Bool :=
  match (s.tile t).part, (s.tile u).part with
  | some p, some q => p == q
  | _, _ => false

/-! ### Pages (Table 15.1) -/

/-- Page number of each family's instance 0. -/
def pageBru : Nat := 0x0
def pageSec : Nat := 0x1
def pagePci : Nat := 0x2
def pageHal : Nat := 0x3
def pageThm : Nat := 0x4
def pageSns : Nat := 0x5
def pageAge : Nat := 0x6
def pageFlt : Nat := 0x7
def pageCal : Nat := 0x8
def pageRnd : Nat := 0x9
def pageKvp : Nat := 0xA
def pageSig : Nat := 0xB
def pageTwn : Nat := 0xC
def pagePrt : Nat := 0x10
def pageLnk : Nat := 0x20
def pageStk : Nat := 0x50
def pageVif : Nat := 0x80
def pageRgn : Nat := 0x100
def pageRow : Nat := 0x200

/-- Whether window `w` shows page `page` (Table 15.1, R482, R465). -/
def pageShown (s : State) (w page : Nat) : Bool :=
  if s.recovery then w == 0 && (page == pageSec || page == pageBru)
  else if page < 0xD then w == 0 || !(page == pageBru || page == pageFlt || page == pageCal)
  else if pagePrt ≤ page && page < pagePrt + 16 then
    w == 0 || (s.vif w).partMask.getLsbD (page - pagePrt)
  else if pageLnk ≤ page && page < pageLnk + 48 then true
  else if pageStk ≤ page && page < pageStk + 24 then true
  else if pageVif ≤ page && page < pageVif + 128 then w == 0 || page == pageVif + w
  else if pageRgn ≤ page && page < pageRgn + 144 then true
  else pageRow ≤ page && page < pageRow + 265

/-! ### Interrupt messages (R391, R484) -/

/-- The message of a vector of a function goes out, as its table entry gives it (R391). -/
def HostPort.message (h : HostPort) (fn vec : Nat) : HostPort := { h with sent := h.sent ++ [(fn, vec, FMap.get {} h.msix (64 * fn + vec))] }

/-- One MSI-X message on a vector of a function: sent, or held by its pending bit while the vector is masked. -/
def HostPort.msi (h : HostPort) (fn vec : Nat) : HostPort :=
  if FMap.get false h.unmasked (64 * fn + vec) then h.message fn vec
  else { h with pended := FMap.set false h.pended (64 * fn + vec) true }

/-- A header's pending set is non-empty (R484). -/
def Header.pendingSet (x : Header) : Bool :=
  x.evtStat &&& x.evtEn != 0 || (x.routeHdr && (x.cfgReject || x.badWrite))

/-- Replaces a header; a pending set that turns non-empty sends its message (R484). -/
def State.updateHeader (s : State) (w page : Nat) (x : Header) : State :=
  let s' := s.setHeader w page x
  if x.routeEn && x.pendingSet && !(s.header w page).pendingSet then
    { s' with host := s.host.msi w x.vector.toNat }
  else s'

/-- Sets an EVT_STAT bit in one window. -/
def State.raiseIn (s : State) (w page bit : Nat) : State :=
  let x := s.header w page
  s.updateHeader w page { x with evtStat := x.evtStat ||| BitVec.ofNat 32 (2 ^ bit) }

/-- An event sets its bit in every window that shows the page (R483). -/
def State.raise (s : State) (page bit : Nat) : State :=
  (List.range 128).foldl (fun s w => if pageShown s w page then s.raiseIn w page bit else s) s

/-- Events of PRT_n (Table 15.10). -/
def State.raisePrt (s : State) (p bit : Nat) : State := s.raise (pagePrt + p) bit

/-- A tile event sets its bit in the page of the tile's partition (R494). -/
def State.raiseTile (s : State) (t : TileAddr) (bit : Nat) : State :=
  match (s.tile t).part with
  | some p => s.raisePrt p.val bit
  | none => s

/-! ### Tile registers -/

/-- Scalar register n; s0 reads as zero (R48). -/
def Tile.sreg (T : Tile) (n : Nat) : Word := if n = 0 then 0 else FMap.get 0 T.sregs n
/-- Writes scalar register n; a write to s0 is discarded (R48). -/
def Tile.setSreg (T : Tile) (n : Nat) (v : Word) : Tile :=
  if n = 0 then T else { T with sregs := FMap.set 0 T.sregs n v }
def Tile.areg (T : Tile) (n : Nat) : Range := FMap.get {} T.aregs n
def Tile.setAreg (T : Tile) (n : Nat) (r : Range) : Tile := { T with aregs := FMap.set {} T.aregs n r }
/-- A counter of the tile frame (R62). -/
def Tile.counter (T : Tile) (off : Nat) : Word := FMap.get 0 T.ctr off
/-- Counts `n` at a frame offset, saturating (R62). -/
def Tile.count (T : Tile) (off n : Nat) : Tile :=
  { T with ctr := FMap.set 0 T.ctr off (satAdd32 (T.counter off) n) }
/-- The conflict counter of a bank (R206). -/
def ctrBankWait (b : Nat) : Nat := 0x088 + 4 * b
/-- Counts what an access met: waits at banks (R206), and corrected words, whose reads are right (R33, R44, R46). -/
def Tile.noted (T : Tile) (b : BankNote) : Tile :=
  let T1 := b.waits.foldl (fun T n => T.count (ctrBankWait n.val) 1) T
  if b.corr = 0 then T1 else T1.count 0x014 b.corr
/-- Keeps the highest value seen at a frame offset (SB_PEAK, SKID_PEAK). -/
def Tile.peak (T : Tile) (off n : Nat) : Tile :=
  if (T.counter off).toNat < n then { T with ctr := FMap.set 0 T.ctr off (BitVec.ofNat 32 n) } else T

/-- Granule g of the scratchpad (R44). -/
def Tile.granule (T : Tile) (g : Nat) : Granule := BitVec.ofNat 256 (natLE (T.pad.read (32 * g) 32))
def Tile.setGranule (T : Tile) (g : Nat) (v : Granule) : Tile :=
  { T with pad := T.pad.write (32 * g) (bytesLE 32 v.toNat) }
/-- Column line n with its side field (R32). -/
def Tile.line (T : Tile) (n : Nat) : Line :=
  { data := T.column.read (1024 * n) 1024, side := T.side.read (128 * n) 128 }
/-- Writes column line n; the side field too when it is given. -/
def Tile.setLine (T : Tile) (n : Nat) (data : List Byte) (side : Option (List Byte)) : Tile :=
  { T with column := T.column.write (1024 * n) data,
           side := match side with
             | some b => T.side.write (128 * n) b
             | none => T.side }
def Tile.acc (T : Tile) (n : Nat) : Acc := FMap.get {} T.accs n
def Tile.setAcc (T : Tile) (n : Nat) (x : Acc) : Tile := { T with accs := FMap.set {} T.accs n x }

/-! ### Frame offsets of the tile counters (Tables 2.11, 3.14, 4.7, R195, 6.7, 7.17) -/

def ctrSlip : Nat := 0x010
def ctrCorr : Nat := 0x014
def ctrRetry : Nat := 0x018
def ctrRefreshForced : Nat := 0x01C
def ctrForcedGrant : Nat := 0x020
def ctrSbPeak : Nat := 0x024
def ctrLadderA8 : Nat := 0x028
def ctrLadderW16 : Nat := 0x02C
def ctrOutlier : Nat := 0x030
def ctrLadderClk : Nat := 0x034
def ctrAccRange : Nat := 0x038
def ctrArriveOver : Nat := 0x04C
def ctrCredSat : Nat := 0x050
def ctrHoldreqClk : Nat := 0x054
def ctrDescWait : Nat := 0x058
def ctrFlushWait : Nat := 0x05C
def ctrRangeWait : Nat := 0x060
def ctrFillWait : Nat := 0x064
def ctrDrainWait : Nat := 0x068
def ctrHoldIn : Nat := 0x070
def ctrHoldOut : Nat := 0x074
def ctrSleep : Nat := 0x078
def ctrSkidPeak : Nat := 0x07C
def ctrSkidFull : Nat := 0x080
def ctrBarWait : Nat := 0x084
def ctrSlipClk : Nat := 0x0C8
def ctrSchedWait : Nat := 0x0D0
def ctrFlowWait : Nat := 0x0D4
def ctrMgmtForced : Nat := 0x0D8
def ctrFlowForced : Nat := 0x0DC
def ctrRouteDrop : Nat := 0x0E0

/-! ### Faults of a tile (R122, R124) -/

/-- FAULT_INFO (Table 4.8). -/
def faultWord (code detail : Nat) (ext : Bool) (pc : BitVec 11) : Word :=
  BitVec.ofNat 32 (code * 2 ^ 28 + detail % 16 * 2 ^ 24 + (if ext then 2 ^ 11 else 0) + pc.toNat)

/-- A rim-bound management flit of a tile: it travels to the rim gate (R227). -/
def rimFlit (s : State) (t : TileAddr) (b : FlitBody) : Flit :=
  { src := .tile t, dst := (s.partOf t).gate, rim := true, body := b }

/-- A fault halts the tile, fills FAULT_INFO if it is empty, and queues the fault report (R122, R124, R61). -/
def tileFault (s : State) (t : TileAddr) (code detail : Nat) (ext : Bool) : State :=
  let T := s.tile t
  let info := faultWord code detail ext T.pc
  s.setTile t { T with
    halted := true
    wait := .none
    faultInfo := if T.faultInfo = 0 then info else T.faultInfo
    mgmtQ := T.mgmtQ ++ [rimFlit s t (.fault info)] }

/-- Fault codes of Table 4.6. -/
def codeIllegal : Nat := 1
def codeSeq : Nat := 2
def codeRange : Nat := 3
def codeWin : Nat := 4
def codeRoute : Nat := 5
def codeSync : Nat := 6
def codeUncorrectable : Nat := 7

/-- The partition hold is asserted at a tile (R213), or a fault-capture hold freezes it (R402). -/
def held (s : State) (t : TileAddr) : Bool :=
  serialGt (s.tile t).maxIn (s.tile t).late || (s.partOf t).frozen

/-- A queue entry appended to a management injection queue. -/
def Tile.inject (T : Tile) (f : Flit) : Tile := { T with mgmtQ := T.mgmtQ ++ [f] }

/-- The notice that operation `id` will send takes its place in issue order among the management flits (R186, R193). -/
def State.promise (s : State) (t : TileAddr) (id : Nat) (sends : Bool) : State :=
  if sends then s.setTile t ((s.tile t).inject (rimFlit s t (.due id))) else s

/-- Operation `id` completes: its notice stands in its place, and may leave. -/
def Tile.notify (T : Tile) (id : Nat) (f : Flit) : Tile :=
  if T.mgmtQ.any fun g => g.body == .due id then
    { T with mgmtQ := T.mgmtQ.map fun g => if g.body = .due id then f else g }
  else T.inject f

/-- Replaces the tile at `t` by `g` of it. -/
def State.mapTile (s : State) (t : TileAddr) (g : Tile → Tile) : State := s.setTile t (g (s.tile t))

/-- The note of an access of `t` is counted; an empty one changes nothing (R206). -/
def State.noted (s : State) (t : TileAddr) (b : BankNote) : State :=
  if b = {} then s else s.mapTile t fun T => T.noted b

end Sys2Proof.Machine
end

