-- ==== Sys2Proof/Machine/Acks.lean ====
section
/-! DEFINITION. Access to the rim's tables, partition counters, and what happens when a line written for the rim has landed. -/
namespace Sys2Proof.Machine

/-! ### Tiles of a rectangle -/

/-- Regions of a rectangle. -/
def rectRegions (gx gy w h : Nat) : List Nat := (List.range w).flatMap fun i => (List.range h).map fun j => (gx + i) * 12 + gy + j

/-- Address words of a rectangle's logical tiles, beside those of a lost region (R16, R112). -/
def rectTiles (gx gy w h : Nat) (lost : Option Nat) : List Nat :=
  (List.range (28 * w)).flatMap fun i => (List.range (27 * h)).filterMap fun j =>
    let c := 28 * gx + i
    let r := 27 * gy + j
    if lost = some (c / 28 * 12 + r / 27) then none else some (c * 512 + r)

/-- The step interval of an exact-mode image in clk; flow mode paces steps by credits alone (R24). -/
def Partition.stepInterval (P : Partition) : Nat := if P.exact then ((P.image.map (·.header.stepInterval)).getD 0) else 0

def Partition.regions (P : Partition) : List Nat := rectRegions P.gx0 P.gy0 P.width P.height

def State.row (s : State) (r : Nat) : Row := FMap.get {} s.rows r
def State.setRow (s : State) (r : Nat) (x : Row) : State := { s with rows := FMap.set {} s.rows r x }
def State.mapRow (s : State) (r : Nat) (g : Row → Row) : State := s.setRow r (g (s.row r))
def State.ring (s : State) (w k : Nat) : Ring := FMap.get {} s.rings (32 * w + k)
def State.setRing (s : State) (w k : Nat) (x : Ring) : State := { s with rings := FMap.set {} s.rings (32 * w + k) x }
def State.handle (s : State) (h : Nat) : Handle := FMap.get {} s.handles h
def State.setHandle (s : State) (h : Nat) (x : Handle) : State := { s with handles := FMap.set {} s.handles h x }
def State.kv (s : State) (w : Nat) : KvWin := FMap.get {} s.kvp w
def State.setKv (s : State) (w : Nat) (x : KvWin) : State := { s with kvp := FMap.set {} s.kvp w x }
def State.rn (s : State) (w : Nat) : RndWin := FMap.get {} s.rnd w
def State.setRn (s : State) (w : Nat) (x : RndWin) : State := { s with rnd := FMap.set {} s.rnd w x }
def State.port (s : State) (n : Nat) : LinkPort := FMap.get {} s.ports n
def State.setPort (s : State) (n : Nat) (x : LinkPort) : State := { s with ports := FMap.set {} s.ports n x }
def State.mapPart (s : State) (p : Nat) (g : Partition → Partition) : State := s.setPart p (g (s.part p))

/-- Hall time in ns (R366). -/
def State.ns (s : State) : Nat := s.hall.now / 65536

/-- The partition holds an accepted image and is not in quarantine (R250, R470). -/
def Partition.loaded (P : Partition) : Bool := P.image.isSome && !P.quarantine

/-! ### Partition counters (R293, Table 15.8) -/

/-- Counters of 64 bits among them. -/
def wideCtr (off : Nat) : Bool := off == 0x100 || off == 0x108 || off == 0x170 || off == 0x178 || off == 0x180

def Partition.counter (P : Partition) (off : Nat) : DWord := FMap.get 0 P.ctr off
/-- Counts up, saturating at the counter's width. -/
def Partition.count (P : Partition) (off n : Nat) : Partition :=
  let lim := if wideCtr off then 2 ^ 64 - 1 else 2 ^ 32 - 1
  { P with ctr := FMap.set 0 P.ctr off (BitVec.ofNat 64 (min lim ((P.counter off).toNat + n))) }
def State.countPart (s : State) (p off n : Nat) : State := s.mapPart p fun P => P.count off n

def ctrSteps : Nat := 0x100
def ctrTokens : Nat := 0x108
def ctrRefused : Nat := 0x110
def ctrMiss : Nat := 0x114
def ctrOverdue : Nat := 0x118
def ctrStall : Nat := 0x11C
def ctrReplayDup : Nat := 0x120
def ctrSpecDiscard : Nat := 0x124
def ctrSpecTimeout : Nat := 0x128
def ctrCow : Nat := 0x12C
def ctrPfxShort : Nat := 0x130
def ctrRebuild : Nat := 0x134
def ctrShipOut : Nat := 0x138
def ctrShipIn : Nat := 0x13C
def ctrShipRefused : Nat := 0x140
def ctrShipRetry : Nat := 0x144
def ctrShardRetry : Nat := 0x148
def ctrScrub : Nat := 0x14C
def ctrLogDrop : Nat := 0x150
def ctrGenSwitch : Nat := 0x154
def ctrAdapterSwitch : Nat := 0x158
def ctrReplay : Nat := 0x15C
def ctrDivert : Nat := 0x160
def ctrHalt : Nat := 0x164
def ctrReread : Nat := 0x168
def ctrRecoveryNs : Nat := 0x170
def ctrDuty : Nat := 0x178
def ctrTherm : Nat := 0x180

/-! ### Events of a window and of the physical function's page -/

/-- SIG page events of a virtual interface (R294, Table 8.21). -/
def State.raiseSig (s : State) (w bit : Nat) : State := s.raiseIn w pageSig bit
/-- KVP page events (R332, Table 9.13). -/
def State.raiseKvp (s : State) (w bit : Nat) : State := s.raiseIn w pageKvp bit
/-- RND page events; in the physical function's page also where Table 10.15 says so. -/
def State.raiseRnd (s : State) (w bit : Nat) (also_ : Bool) : State :=
  let s1 := s.raiseIn w pageRnd bit
  if also_ && w != 0 then s1.raiseIn 0 pageRnd bit else s1

/-! ### The end of a running load (R342, R357, R360) -/

def Partition.gen (P : Partition) (copy : Bool) : Option Gen := if copy then P.copy1 else P.copy0
def Partition.setGen (P : Partition) (copy : Bool) (g : Option Gen) : Partition :=
  if copy then { P with copy1 := g } else { P with copy0 := g }
def Partition.slot (P : Partition) (j : Nat) : Slot := FMap.get {} P.slots j
def Partition.setSlot (P : Partition) (j : Nat) (x : Slot) : Partition := { P with slots := FMap.set {} P.slots j x }
def Slot.gen (x : Slot) (copy : Bool) : Option SlotGen := if copy then x.copy1 else x.copy0
def Slot.setGen (x : Slot) (copy : Bool) (g : Option SlotGen) : Slot :=
  if copy then { x with copy1 := g } else { x with copy0 := g }

/-- Ends the running command of a window: busy cleared, status set, CMD_DONE or CMD_FAIL raised (R360). -/
def State.endRnd (s : State) (w : Nat) (status : Byte) : State :=
  (s.setRn w { s.rn w with busy := false, status := status, load := none, image := none }).raiseRnd w
    (if status = 0 then 0 else 1) false

/-- Every shard matched and every line written: the generation is verified and its command done (R342); while its
partition is held for recovery the load pauses (Table 10.7). It counts from here: one that failed
or was given up before has no number (R345, R356; log entry 110). -/
def State.loadCheck (s : State) (w : Nat) : State :=
  match (s.rn w).load with
  | none => s
  | some L =>
    if L.lines = 0 && L.shards.all (fun x => x.st == .good) && !(s.part L.part).frozen && (s.part L.part).rstate == 0 then
      let s1 := s.mapPart L.part fun P =>
        match L.slot with
        | none =>
          { P.setGen L.copy ((P.gen L.copy).map fun g => { g with
              ready := true
              late := g.switchAt != 0 && decide (g.switchAt < P.stepNo) }) with
            genCount := ((P.gen L.copy).map (·.no)).getD P.genCount }
        | some j =>
          let x := P.slot j
          P.setSlot j { x.setGen L.copy ((x.gen L.copy).map fun g => { g with ready := true }) with
            count := ((x.gen L.copy).map (·.no)).getD x.count }
      s1.endRnd w 0
    else s

/-- Who waits for the lines of landing n (R326). -/
def landMark (n : Nat) : Nat := 131072 + n

/-- Who waits for the lines that the badger's repair in partition p rewrites (R353). -/
def repairMark (p : Nat) : Nat := 98304 + p

/-- A repair's line has landed; with the last of them the repair is done. -/
def repairLine (s : State) (p : Nat) : State :=
  let one := fun (r : Repair) => match r.left with
    | some n => if r.part != p then some r else if n ≤ 1 then none else some { r with left := some (n - 1) }
    | none => some r
  { s with house := { s.house with repairs := s.house.repairs.filterMap one } }

/-- A line written for the rim has landed: a page line's acknowledgement sets out for the rim, a weight line counts for its load or its
repair; one of a load that was given up counts for none (R302, R342, R344, R353). -/
def ackLine (s : State) (p : Option PartId) (who : Nat) : State :=
  if 98304 ≤ who && who < 131072 then repairLine s (who - 98304)
  else if 32768 ≤ who && who < 98304 then s
  else if who < 16384 || 131072 ≤ who then
    match p with
    | some p => s.mapPart p.val fun P => { P with lineAcks := P.lineAcks ++ [who] }
    | none => s
  else
    let w := who - 16384
    match (s.rn w).load with
    | some L => (s.setRn w { s.rn w with load := some { L with lines := L.lines - 1 } }).loadCheck w
    | none => s

end Sys2Proof.Machine
end

