-- ==== Sys2Proof/Machine/Operands.lean ====
section
/-! DEFINITION. Operand forms of the tile instructions: src2, ranges, pairs, triples, targets, row contexts and draws. -/
namespace Sys2Proof.Machine

/-- src2 of format C: the immediate when i is one, else s[sb]. -/
def src2 (T : Tile) (f : FmtC) : Word := if f.i then f.imm else T.sreg f.sb.toNat

/-- The scalars that src2 reads. -/
def src2Needs (f : FmtC) : List Nat := if f.i then [] else [f.sb.toNat]

/-- Units in a space (Table 2.6). -/
def spaceSize (sp : BitVec 2) : Nat :=
  if sp = 0 then 12288 else if sp = 1 then 8192 else if sp = 2 then 512 else 0

/-- R48: the space is defined, len is not 0 and the range lies inside its space. -/
def Range.ok (r : Range) : Bool :=
  r.space != 3 && r.len != 0 && decide (r.base.toNat + r.len.toNat ≤ spaceSize r.space)

def Range.inPad (r : Range) : Bool := r.space == 0
def Range.inColumn (r : Range) : Bool := r.space == 1
def Range.inAccs (r : Range) : Bool := r.space == 2
/-- Length in units. -/
def Range.n (r : Range) : Nat := r.len.toNat
def Range.lo (r : Range) : Nat := r.base.toNat

/-- Two ranges share a unit (R49). -/
def Range.overlaps (r q : Range) : Bool :=
  r.space == q.space && decide (r.lo < q.lo + q.n) && decide (q.lo < r.lo + r.n)

def padRange (base n : Nat) : Range := { space := 0, len := BitVec.ofNat 14 n, base := BitVec.ofNat 14 base }
def columnRange (base n : Nat) : Range := { space := 1, len := BitVec.ofNat 14 n, base := BitVec.ofNat 14 base }
def accRange (base n : Nat) : Range := { space := 2, len := BitVec.ofNat 14 n, base := BitVec.ofNat 14 base }

/-- The smallest range of `r`'s space that holds both (R156, R157). -/
def Range.hull (r q : Range) : Range :=
  let lo := min r.lo q.lo
  let hi := max (r.lo + r.n) (q.lo + q.n)
  { space := r.space, len := BitVec.ofNat 14 (hi - lo), base := BitVec.ofNat 14 lo }

/-! ### Fault checks -/

/-- A fault found at the check stage: code and detail (Table 4.6). -/
abbrev Flt := Option (Nat × Nat)

/-- The first fault of a list of checks, in order. -/
def firstFlt : List Flt → Flt
  | [] => none
  | some x :: _ => some x
  | none :: fs => firstFlt fs

/-- RANGE_FAULT naming range register `k` unless `c` holds. -/
def rangeUnless (c : Bool) (k : Nat) : Flt := if c then none else some (codeRange, k)
def illegalUnless (c : Bool) : Flt := if c then none else some (codeIllegal, 0)

/-- R48 of the range registers named; of several bad ones the fault names the first of the list (DESIGN CHOICE, log entry 106: Table 4.6 says
only 'range register'). -/
def rangesOk (T : Tile) (ks : List Nat) : Flt := firstFlt (ks.map fun k => rangeUnless (T.areg k).ok k)

/-- The registers of a triple, and the fault of one that starts above 13 (R155). -/
def tripleRegs (k : Nat) : List Nat := [k, k + 1, k + 2]
def tripleFlt (T : Tile) (k : Nat) : Flt :=
  firstFlt [rangeUnless (k ≤ 13) k, rangesOk T (tripleRegs k)]
/-- The registers of a pair, and the fault of one that starts above 14 (R155). -/
def pairFlt (T : Tile) (k : Nat) : Flt :=
  firstFlt [rangeUnless (k ≤ 14) k, rangesOk T [k, k + 1]]

/-- R156: a triple of `n` blocks: code area n granules, head area ⌈n/8⌉, spill area at least 2n, all in the scratchpad. -/
def tripleLens (T : Tile) (k n : Nat) : Flt :=
  firstFlt [rangeUnless ((T.areg k).inPad && (T.areg k).n == n) k,
            rangeUnless ((T.areg (k + 1)).inPad && (T.areg (k + 1)).n == cdiv n 8) (k + 1),
            rangeUnless ((T.areg (k + 2)).inPad && 2 * n ≤ (T.areg (k + 2)).n) (k + 2)]

/-- A triple counts as the smallest scratchpad range that contains its three areas (R156). -/
def tripleHull (T : Tile) (k : Nat) : Range := ((T.areg k).hull (T.areg (k + 1))).hull (T.areg (k + 2))

/-- ROUTE_FAULT unless the address word names a tile of the issuing tile's partition (R112). -/
def targetFlt (s : State) (t : TileAddr) (v : Word) : Flt :=
  match tileAt v.toNat with
  | some u => if samePart s t u then none else some (codeRoute, 0)
  | none => some (codeRoute, 0)

/-- The tile an accepted target names. -/
def targetOf (v : Word) : TileAddr := (tileAt v.toNat).getD default

/-! ### Draws (R158, R159) -/

/-- log2 of the row count of a drawing instruction: imm[17:16]. -/
def drawRows (imm : BitVec 24) : Nat := 2 ^ (imm.extractLsb' 16 2).toNat
def drawLayer (imm : BitVec 24) : Nat := (imm.extractLsb' 0 12).toNat
def drawSite (imm : BitVec 24) : Nat := (imm.extractLsb' 12 4).toNat

/-- R158, R159: with .SR the row context holds ⌈r/2⌉ granules of the scratchpad and r divides the element count. -/
def drawFlt (T : Tile) (k : Nat) (imm : BitVec 24) (elems : Nat) : Flt :=
  let r := drawRows imm
  firstFlt [rangesOk T [k], rangeUnless ((T.areg k).inPad && (T.areg k).n == cdiv r 2) k,
            rangeUnless (elems % r == 0) k]

/-! ### Element access -/

/-- Bytes of element sizes in the scratchpad, from granule `g`. -/
def Tile.padBytes (T : Tile) (g off n : Nat) : List Byte := T.pad.read (32 * g + off) n
def Tile.padNat (T : Tile) (g off n : Nat) : Nat := natLE (T.padBytes g off n)
def Tile.setPad (T : Tile) (g off : Nat) (bs : List Byte) : Tile := { T with pad := T.pad.write (32 * g + off) bs }

end Sys2Proof.Machine
end

