-- ==== Sys2Proof/Machine/Sequencer.lean ====
section
/-! DEFINITION. The check stage and the issue of one instruction (R47, R50, R113–R118, R126, R127, R199, R236), shared by every
tile instruction. -/
namespace Sys2Proof.Machine

/-- What one instruction asks of the check stage. -/
structure IssueSpec where
  /-- scalars it reads (R118) -/
  needs   : List Nat := []
  /-- its own faults, in the order of R114 -/
  fault   : Flt := none
  /-- ranges read and written (R50) -/
  reads   : List Range := []
  writes  : List Range := []
  /-- the latch unit (R117) -/
  rdLatch : Bool := false
  wrLatch : Bool := false
  /-- class of the scoreboard entry it holds (R49) -/
  entry   : Option SbClass := none
  /-- that entry is released 1 clk after issue (R167) -/
  brief   : Bool := false
  /-- the window that R198 exempts from R115 -/
  exempt  : Option Nat := none
  /-- its own queue or resource (R199) -/
  own     : Wait := .none
  /-- target of a taken branch -/
  branch  : Option (BitVec 11) := none
  /-- the branch may pop loop levels (R126) -/
  pops    : Bool := false
  /-- loop level it pushes (R127) -/
  push    : Option LoopLevel := none
  /-- it stops the sequencer (R128) -/
  stops   : Bool := false
  deriving DecidableEq, Repr

/-- Ranges of the sequencer's own accesses in flight: one granule each (R119; log entry 15). -/
def SeqAccess.reads : SeqAccess → List Range
  | .loadWord _ a => [padRange (a / 32) 1]
  | _ => []
def SeqAccess.writes : SeqAccess → List Range
  | .storeWord _ a _ => [padRange (a / 32) 1]
  | _ => []

/-- Ranges in flight that are read, and that are written. -/
def Tile.busyReads (T : Tile) : List Range := T.sb.flatMap (·.reads) ++ T.seqAcc.flatMap (·.reads)
def Tile.busyWrites (T : Tile) : List Range := T.sb.flatMap (·.writes) ++ T.seqAcc.flatMap (·.writes)

def anyOverlap (xs ys : List Range) : Bool := xs.any fun r => ys.any fun q => r.overlaps q

/-- R50, R117: the instruction reads what an operation in flight writes, or writes what one reads or writes. -/
def rangeStall (T : Tile) (p : IssueSpec) : Bool :=
  anyOverlap p.reads T.busyWrites || anyOverlap p.writes T.busyWrites || anyOverlap p.writes T.busyReads ||
  (p.rdLatch && T.sb.any (·.wrLatch)) || (p.wrLatch && T.sb.any (fun e => e.wrLatch || e.rdLatch))

/-- ARRIVE_n. -/
def Tile.arrived (T : Tile) (n : Nat) : BitVec 24 := FMap.get 0 T.arrive n
def Tile.window (T : Tile) (n : Nat) : Window := FMap.get {} T.wins n

/-- Window n is open and below its expected count (R115, R201). -/
def Tile.unfilled (T : Tile) (n : Nat) : Bool := (T.window n).opened && (T.arrived n).toNat < (T.window n).expected

/-- R115, R198: a range of the instruction overlaps an open, unfilled window that is not exempt. -/
def fillStall (T : Tile) (p : IssueSpec) : Bool :=
  (List.range 16).any fun n =>
    T.unfilled n && p.exempt != some n && anyOverlap (p.reads ++ p.writes) [(T.window n).range]

/-- What the check stage answers in one clk (R114, R199). -/
inductive Verdict where
  | stall (w : Wait)
  | fault (code detail : Nat)
  | issue
  deriving DecidableEq, Repr

/-- R114, R199: pending scalars, then the faults, then the stalls in the counting order. -/
def verdict (T : Tile) (w : DWord) (p : IssueSpec) : Verdict :=
  if p.needs.any (fun n => T.pend.contains n) then .stall .scalar
  else if !wordLegal w then .fault codeIllegal 0
  else match p.fault with
    | some (c, d) => .fault c d
    | none =>
      if rangeStall T p then .stall .range
      else if fillStall T p then .stall .fill
      else if p.own ≠ .none then .stall p.own
      else if p.entry.isSome && 24 ≤ T.sb.length then .stall .queue
      else .issue

/-- The word at an index of the instruction store; beyond the program it holds zero (R46). -/
def Tile.wordAt (T : Tile) (pc : BitVec 11) : DWord := T.prog.getD pc.toNat 0

/-- The sequencer may act in this clk: running, not held, not asleep or spinning, no ladder or HOLDREQ clk running
(R61, R96, R137, R141), and in exact mode the due clk reached (R236). -/
def ready (s : State) (t : TileAddr) : Bool :=
  let T := s.tile t
  !T.halted && !T.starting && T.nap.rest == .awake && !held s t && T.ladder == 0 && !T.holdreqOn &&
  (!(s.partOf t).exact || decide (T.due ≤ T.sigma))

/-- The word `w` waits at the check stage of `t` and the sequencer may act. -/
def atCheck (s : State) (t : TileAddr) (w : DWord) : Bool :=
  ready s t && (s.tile t).wordAt (s.tile t).pc == w

/-! ### The next pc -/

/-- R126: levels whose body holds `p` but not the target end. -/
def popOutside (p tgt : BitVec 11) : List LoopLevel → List LoopLevel
  | [] => []
  | l :: ls =>
    if l.start ≤ p && p ≤ l.stop && !(l.start ≤ tgt && tgt ≤ l.stop) then popOutside p tgt ls else l :: ls

/-- R127, at the issue of index `p`: the levels left and the back edge, if one fires. -/
def loopEnd (p : BitVec 11) : List LoopLevel → List LoopLevel × Option (BitVec 11)
  | [] => ([], none)
  | l :: ls =>
    if l.stop = p then
      if 1 < l.left then ({ l with left := l.left - 1 } :: ls, some l.start) else loopEnd p ls
    else (l :: ls, none)

/-- The loop stack and the next pc after the instruction at `p`; no pc when it runs off the store (R113). -/
def nextPc (T : Tile) (p : IssueSpec) : List LoopLevel × Option (BitVec 11) :=
  match p.branch with
  | some tgt => (if p.pops then popOutside T.pc tgt T.loops else T.loops, some tgt)
  | none =>
    let r := loopEnd T.pc (p.push.toList ++ T.loops)
    match r.2 with
    | some b => (r.1, some b)
    | none => (r.1, if T.pc = 2047 then none else some (T.pc + 1))

/-- Issue of the instruction: its scoreboard entry, the next pc, and in exact mode the next due value (R49, R113, R236). -/
def issued (T : Tile) (exact : Bool) (p : IssueSpec) : Tile :=
  let np := nextPc T p
  let pc := np.2.getD T.pc
  let sb := match p.entry with
    | some c => T.sb ++ [{ id := T.nextId, cls := c, reads := p.reads, writes := p.writes,
                           rdLatch := p.rdLatch, wrLatch := p.wrLatch, brief := p.brief }]
    | none => T.sb
  ({ T with
      sb := sb
      nextId := T.nextId + 1
      pc := pc
      loops := np.1
      wait := .none
      slip := false
      due := if exact then T.sigma + 1 + (if p.branch.isSome then 2 else 0) + (T.plan.getD pc.toNat 0).toNat
             else T.due }).peak ctrSbPeak sb.length

/-- The instruction issued and did its work `eff`; running off the store raises SEQ_FAULT (R113). The instruction at index 2,047 still
does its work first (DESIGN CHOICE, log entry 106: R113 says only that it raises the fault). -/
def issueWith (s : State) (t : TileAddr) (p : IssueSpec) (eff : State → State) : State :=
  let T := s.tile t
  let s' := eff (s.setTile t (issued T (s.partOf t).exact p))
  if (nextPc T p).2.isNone && !p.stops then tileFault s' t codeSeq 0 false else s'

/-- One clk of the instruction word `w` at the check stage of `t`: nothing if it is not there, a fault, a stall or the issue. -/
def seqStep (s : State) (t : TileAddr) (w : DWord) (p : IssueSpec) (eff : State → State) : State :=
  if !atCheck s t w then s
  else match verdict (s.tile t) w p with
    | .fault c d => tileFault s t c d false
    | .stall r => s.mapTile t fun T => { T with wait := r }
    | .issue => issueWith s t p eff

/-- The scoreboard entry of a finished operation is released (R49). -/
def Tile.release (T : Tile) (id : Nat) : Tile := { T with sb := T.sb.filter (fun e => e.id != id) }

/-- No STC.M issued before operation `id` still waits for its bank, so `id` may reach the scratchpad (R119). -/
def Tile.inOrder (T : Tile) (id : Nat) : Bool :=
  !T.seqAcc.any fun a => match a with
    | .storeWord i _ _ => decide (i < id)
    | _ => false

/-- Something waits to be injected: the send queue or the management injection (R128, R137). -/
def Tile.injecting (T : Tile) : Bool := !T.sendQ.isEmpty || !T.mgmtQ.isEmpty

/-- A WAKE or CRED flit waits to be injected (R136, R142). -/
def Tile.wakeOrCred (T : Tile) : Bool :=
  T.mgmtQ.any fun f => match f.body with
    | .wake _ => true
    | .credit _ _ => true
    | _ => false

end Sys2Proof.Machine
end

