-- ==== Sys2Proof/Machine/Control.lean ====
section
/-! DEFINITION. The control instructions NOP to STC (R125–R133) and HALT, STEPWAIT (R128–R130). -/
namespace Sys2Proof.Machine

/-- What a command answers. -/
abbrev Out := Host.Outcome State Fault Refusal

/-! ### NOP, JMP, BRC, CALL, RET (R125, R126) -/

/-- NOP. An undefined opcode at the check stage, which no mnemonic names, is met here too and faults (R109). -/
def execNop (t : TileAddr) (f : FmtC) (s : State) : Out :=
  let w := (s.tile t).wordAt (s.tile t).pc
  if ready s t && (decodeWord t w).isNone then .next (tileFault s t codeIllegal 0 false)
  else .next (seqStep s t (f.word 0x00) {} id)

def jumpTarget (f : FmtC) : BitVec 11 := f.imm.extractLsb' 0 11

def specJmp (f : FmtC) : IssueSpec := { branch := some (jumpTarget f), pops := true }

def execJmp (t : TileAddr) (f : FmtC) (s : State) : Out :=
  .next (seqStep s t (f.word 0x01) (specJmp f) id)

/-- BRC's condition: 0 .Z, 1 .NZ, 2 .NEG, 3 .NNEG. -/
def brcTaken (sfx : BitVec 4) (v : Word) : Bool :=
  match sfx.toNat with
  | 0 => v == 0
  | 1 => v != 0
  | 2 => v.slt 0
  | _ => !v.slt 0

def specBrc (T : Tile) (f : FmtC) : IssueSpec :=
  { needs := [f.sa.toNat]
    branch := if brcTaken f.sfx (T.sreg f.sa.toNat) then some (jumpTarget f) else none
    pops := true }

def execBrc (t : TileAddr) (f : FmtC) (s : State) : Out :=
  .next (seqStep s t (f.word 0x02) (specBrc (s.tile t) f) id)

def specCall (T : Tile) (f : FmtC) : IssueSpec :=
  { fault := if 8 ≤ T.rets.length then some (codeSeq, 0) else none
    branch := some (jumpTarget f) }

/-- The return index is pc + 1 in 11 bits (log entry 16). -/
def execCall (t : TileAddr) (f : FmtC) (s : State) : Out :=
  let back := (s.tile t).pc + 1
  .next (seqStep s t (f.word 0x04) (specCall (s.tile t) f) fun s =>
    s.mapTile t fun T => { T with rets := back :: T.rets })

def specRet (T : Tile) : IssueSpec :=
  match T.rets with
  | [] => { fault := some (codeSeq, 0) }
  | r :: _ => { branch := some r }

def execRet (t : TileAddr) (f : FmtC) (s : State) : Out :=
  .next (seqStep s t (f.word 0x05) (specRet (s.tile t)) fun s =>
    s.mapTile t fun T => { T with rets := T.rets.tail })

/-! ### LOOP (R127) -/

/-- The count: imm[31:16], or s[sb][15:0]. -/
def loopCount (T : Tile) (f : FmtC) : Nat :=
  if f.i then (f.imm.extractLsb' 16 16).toNat else ((T.sreg f.sb.toNat).extractLsb' 0 16).toNat

/-- A LOOP with count 0 goes to end + 1; past index 2,047 that is SEQ_FAULT (R113; log entry 16). -/
def specLoop (T : Tile) (f : FmtC) : IssueSpec :=
  let stop := jumpTarget f
  let n := loopCount T f
  { needs := src2Needs f
    fault :=
      if stop ≤ T.pc then some (codeSeq, 0)
      else if n = 0 then (if stop = 2047 then some (codeSeq, 0) else none)
      else if 4 ≤ T.loops.length then some (codeSeq, 0) else none
    branch := if n = 0 then some (stop + 1) else none
    push := if n = 0 then none else some { start := T.pc + 1, stop := stop, left := n } }

def execLoop (t : TileAddr) (f : FmtC) (s : State) : Out :=
  .next (seqStep s t (f.word 0x03) (specLoop (s.tile t) f) id)

/-! ### HALT (R128) -/

def specHalt (T : Tile) : IssueSpec :=
  { own := if T.sb.isEmpty && !T.injecting then .none else .other
    stops := true }

/-- TILE_HALTED is bit 6 of PRT_n.EVT_STAT. -/
def effHalt (t : TileAddr) (s : State) : State :=
  (s.mapTile t fun T => { T with halted := true }).raiseTile t 6

def execHalt (t : TileAddr) (f : FmtC) (s : State) : Out :=
  .next (seqStep s t (f.word 0x06) (specHalt (s.tile t)) (effHalt t))

/-! ### STEPWAIT (R129, R130) -/

def specStepwait (T : Tile) (f : FmtA) : IssueSpec :=
  let d := T.areg f.ad.toNat
  { fault := firstFlt [rangesOk T [f.ad.toNat], rangeUnless (d.inPad && d.n == 2) f.ad.toNat]
    writes := [d]
    entry := some .memory
    own := if T.mailbox.isEmpty then .mailbox else .none }

/-- Takes the oldest notice: STEP_NO and s[sx] at issue, the two granules later. -/
def effStepwait (t : TileAddr) (f : FmtA) (id base : Nat) (s : State) : State :=
  s.mapTile t fun T =>
    match T.mailbox with
    | [] => T
    | (g0, g1) :: rest =>
      let no : Word := g0.extractLsb' 0 32
      { (T.setSreg f.sx.toNat no) with
        stepNo := no
        mailbox := rest
        seqAcc := T.seqAcc ++ [.stepWait id base g0 g1] }

def execStepwait (t : TileAddr) (f : FmtA) (s : State) : Out :=
  let T := s.tile t
  .next (seqStep s t (f.word 0x07) (specStepwait T f)
    (effStepwait t f T.nextId (T.areg f.ad.toNat).lo))

/-! ### SETS, ADDS, SUBS, ANDS, ORS, SHLS, CMPS (R131) -/

/-- The range that SETS.A writes, unchecked. -/
def setsRange (imm : Word) : Range :=
  { space := imm.extractLsb' 30 2, len := imm.extractLsb' 16 14, base := imm.extractLsb' 0 14 }

def effSets (t : TileAddr) (f : FmtC) (s : State) : State :=
  s.mapTile t fun T =>
    if f.sfx = 0 then T.setSreg f.sd.toNat f.imm else T.setAreg f.sd.toNat (setsRange f.imm)

def execSets (t : TileAddr) (f : FmtC) (s : State) : Out :=
  .next (seqStep s t (f.word 0x08) {} (effSets t f))

/-- The scalars of a two-operand scalar instruction. -/
def specAlu (f : FmtC) : IssueSpec := { needs := f.sa.toNat :: src2Needs f }

/-- s[sd] := g (s[sa], src2). -/
def effAlu (t : TileAddr) (f : FmtC) (g : Word → Word → Word) (s : State) : State :=
  s.mapTile t fun T => T.setSreg f.sd.toNat (g (T.sreg f.sa.toNat) (src2 T f))

def execAdds (t : TileAddr) (f : FmtC) (s : State) : Out :=
  .next (seqStep s t (f.word 0x09) (specAlu f) (effAlu t f (· + ·)))

def execSubs (t : TileAddr) (f : FmtC) (s : State) : Out :=
  .next (seqStep s t (f.word 0x0A) (specAlu f) (effAlu t f (· - ·)))

def execAnds (t : TileAddr) (f : FmtC) (s : State) : Out :=
  .next (seqStep s t (f.word 0x0B) (specAlu f) (effAlu t f (· &&& ·)))

def execOrs (t : TileAddr) (f : FmtC) (s : State) : Out :=
  .next (seqStep s t (f.word 0x0C) (specAlu f) (effAlu t f (· ||| ·)))

/-- SHLS by src2[4:0]: 0 .L, 1 .R, 2 .RA. -/
def shiftBy (sfx : BitVec 4) (a b : Word) : Word :=
  let n := b.toNat % 32
  match sfx.toNat with
  | 0 => a <<< n
  | 1 => a >>> n
  | _ => a.sshiftRight n

def execShls (t : TileAddr) (f : FmtC) (s : State) : Out :=
  .next (seqStep s t (f.word 0x0D) (specAlu f) (effAlu t f (shiftBy f.sfx)))

/-- CMPS: 0 .EQ, 1 .NE, 2 .LT, 3 .GE, 4 .LTU, 5 .GEU. -/
def compareBy (sfx : BitVec 4) (a b : Word) : Bool :=
  match sfx.toNat with
  | 0 => a == b
  | 1 => a != b
  | 2 => a.slt b
  | 3 => !a.slt b
  | 4 => a.ult b
  | _ => !a.ult b

def execCmps (t : TileAddr) (f : FmtC) (s : State) : Out :=
  .next (seqStep s t (f.word 0x0E) (specAlu f) (effAlu t f fun a b => if compareBy f.sfx a b then 1 else 0))

/-! ### MOVS (R132) -/

/-- The scalars that a MOVS form reads. -/
def specMovs (f : FmtC) : IssueSpec :=
  { needs := if f.sfx = 1 || f.sfx = 2 || f.sfx = 3 then [] else [f.sa.toNat] }

/-- The tile after a MOVS: .S, .A, .RB, .RL, .WB, .WL, .WS, .IB in order. -/
def movsTile (f : FmtC) (T : Tile) : Tile :=
  let d := f.sd.toNat
  let v := T.sreg f.sa.toNat
  let r := T.areg f.sa.toNat
  let q := T.areg d
  match f.sfx.toNat with
  | 0 => T.setSreg d v
  | 1 => T.setAreg d r
  | 2 => T.setSreg d (r.base.setWidth 32)
  | 3 => T.setSreg d (r.len.setWidth 32)
  | 4 => T.setAreg d { q with base := v.extractLsb' 0 14 }
  | 5 => T.setAreg d { q with len := v.extractLsb' 0 14 }
  | 6 => T.setAreg d { q with space := v.extractLsb' 0 2 }
  | _ => T.setAreg d { q with base := (q.base.setWidth 32 + v).extractLsb' 0 14 }

def execMovs (t : TileAddr) (f : FmtC) (s : State) : Out :=
  .next (seqStep s t (f.word 0x0F) (specMovs f) (fun s => s.mapTile t (movsTile f)))

/-! ### LDC and STC (R121, R133) -/

/-- TILE_ID (Table 2.12). -/
def tileIdWord (t : TileAddr) (T : Tile) : Word :=
  BitVec.ofNat 32 ((match T.part with
    | some p => 2 ^ 31 + p.val * 2 ^ 27
    | none => 0) + t.row.val * 2 ^ 18 + t.col.val * 2 ^ 9)

/-- The tile control space (Table 4.5); an undefined number reads zero. -/
def controlRead (t : TileAddr) (T : Tile) (n : Nat) : Word :=
  match n with
  | 0 => tileIdWord t T
  | 1 => T.stepNo
  | 2 => BitVec.ofNat 32 T.sb.length
  | 3 => T.wakeLatch.setWidth 32
  | 4 => T.barSense
  | 5 => T.barMember
  | 6 => BitVec.ofNat 32 T.mailbox.length
  | _ =>
    if 0x10 ≤ n && n < 0x20 then
      BitVec.ofNat 32 ((if (T.window (n - 0x10)).opened then 2 ^ 24 else 0) + (T.arrived (n - 0x10)).toNat)
    else if 0x20 ≤ n && n < 0x30 then (FMap.get (0 : Byte) T.credit (n - 0x20)).setWidth 32
    else 0

/-- Numbers of Table 4.5 that STC.C may write: WAKE_LATCH and CREDIT_n. -/
def controlWritable (n : Nat) : Bool := n == 3 || (0x20 ≤ n && n < 0x30)

/-- STC.C: WAKE_LATCH is write-one-to-clear, CREDIT_n takes bits [7:0]. -/
def controlWrite (T : Tile) (n : Nat) (v : Word) : Tile :=
  if n = 3 then { T with wakeLatch := T.wakeLatch &&& ~~~(v.extractLsb' 0 8) }
  else { T with credit := FMap.set 0 T.credit (n - 0x20) (v.extractLsb' 0 8) }

/-- The byte address of LDC.M and STC.M. -/
def wordAddr (T : Tile) (f : FmtC) : Nat := (T.sreg f.sa.toNat + f.imm).toNat
/-- RANGE_FAULT for a misaligned or out-of-range address (R133). -/
def wordFlt (a : Nat) : Flt := if a % 4 = 0 && a < 0x60000 then none else some (codeRange, 0)

def controlNo (f : FmtC) : Nat := f.imm.toNat % 256

def specLdc (T : Tile) (f : FmtC) : IssueSpec :=
  if f.sfx = 0 then {}
  else { needs := [f.sa.toNat], fault := wordFlt (wordAddr T f), reads := [padRange (wordAddr T f / 32) 1] }

/-- LDC.C writes at once; LDC.M leaves s[sd] pending until its bank access is done (R118). -/
def effLdc (t : TileAddr) (f : FmtC) (a : Nat) (c : Word) (s : State) : State :=
  s.mapTile t fun T =>
    if f.sfx = 0 then T.setSreg f.sd.toNat c
    else { T with
      pend := if f.sd = 0 then T.pend else T.pend ++ [f.sd.toNat]
      seqAcc := T.seqAcc ++ [.loadWord f.sd.toNat a] }

def execLdc (t : TileAddr) (f : FmtC) (s : State) : Out :=
  let T := s.tile t
  .next (seqStep s t (f.word 0x10) (specLdc T f) (effLdc t f (wordAddr T f) (controlRead t T (controlNo f))))

def specStc (T : Tile) (f : FmtC) : IssueSpec :=
  if f.sfx = 0 then { needs := [f.sa.toNat], fault := illegalUnless (controlWritable (controlNo f)) }
  else { needs := [f.sa.toNat, f.sb.toNat], fault := wordFlt (wordAddr T f),
         writes := [padRange (wordAddr T f / 32) 1] }

def effStc (t : TileAddr) (f : FmtC) (id : Nat) (s : State) : State :=
  s.mapTile t fun T =>
    if f.sfx = 0 then controlWrite T (controlNo f) (T.sreg f.sa.toNat)
    else { T with seqAcc := T.seqAcc ++ [.storeWord id (wordAddr T f) (T.sreg f.sb.toNat)] }

def execStc (t : TileAddr) (f : FmtC) (s : State) : Out :=
  .next (seqStep s t (f.word 0x11) (specStc (s.tile t) f) (effStc t f (s.tile t).nextId))

end Sys2Proof.Machine
end

