-- ==== Sys2Proof/Machine/Sync.lean ====
section
/-! DEFINITION. The synchronisation instructions WAITA to FENCE (R134–R142). -/
namespace Sys2Proof.Machine

/-! ### WAITA and CLRA (R134): the counter is sfx -/

def specWaita (T : Tile) (f : FmtC) : IssueSpec :=
  { needs := src2Needs f
    own := if (src2 T f).toNat % 2 ^ 24 ≤ (T.arrived f.sfx.toNat).toNat then .none else .other }

def execWaita (t : TileAddr) (f : FmtC) (s : State) : Out :=
  .next (seqStep s t (f.word 0x20) (specWaita (s.tile t) f) id)

/-- ARRIVE_n := v. -/
def Tile.setArrive (T : Tile) (n : Nat) (v : BitVec 24) : Tile := { T with arrive := FMap.set 0 T.arrive n v }

def specClra (T : Tile) (f : FmtC) : IssueSpec :=
  { fault := if (T.window f.sfx.toNat).opened then some (codeWin, f.sfx.toNat) else none }

def execClra (t : TileAddr) (f : FmtC) (s : State) : Out :=
  .next (seqStep s t (f.word 0x21) (specClra (s.tile t) f) fun s => s.mapTile t fun T => T.setArrive f.sfx.toNat 0)

/-! ### WAKE (R136): the wire is sfx -/

def specWake (s : State) (t : TileAddr) (f : FmtC) : IssueSpec :=
  let T := s.tile t
  { needs := [f.sa.toNat]
    fault := targetFlt s t (T.sreg f.sa.toNat)
    own := if T.wakeOrCred then .queue else .none }

def execWake (t : TileAddr) (f : FmtC) (s : State) : Out :=
  let dst := targetOf ((s.tile t).sreg f.sa.toNat)
  .next (seqStep s t (f.word 0x22) (specWake s t f) fun s =>
    s.mapTile t fun T => T.inject { src := .tile t, dst := dst, body := .wake f.sfx.toNat })

/-! ### SLEEP and SPIN (R137–R139, R208) -/

/-- imm[7:0]. -/
def napMask (f : FmtC) : Byte := f.imm.extractLsb' 0 8
/-- imm[31:8], or s[sb][23:0]. -/
def napLimit (T : Tile) (f : FmtC) : Nat :=
  if f.i then (f.imm.extractLsb' 8 24).toNat else (T.sreg f.sb.toNat).toNat % 2 ^ 24

/-- finish(): the latched wires of the mask are consumed and written to s[sd]; in exact mode the next due value follows
from this clk (R137, R236). -/
def napFinish (exact : Bool) (T : Tile) : Tile :=
  let hit := T.wakeLatch &&& T.nap.mask
  let v : Word := (if hit = 0 then 0x80000000 else 0) ||| hit.setWidth 32
  { (T.setSreg T.nap.sd v) with
    wakeLatch := T.wakeLatch &&& ~~~hit
    nap := {}
    due := if exact then T.sigma + 1 + (T.plan.getD T.pc.toNat 0).toNat else T.due }

def specSleep (T : Tile) (f : FmtC) : IssueSpec :=
  { needs := src2Needs f
    fault := illegalUnless (napMask f != 0 || napLimit T f != 0)
    own := if T.sb.isEmpty && !T.injecting then .none else .other }

/-- With a masked wire latched the tile goes on; otherwise it asks the region's stager for its entry (R208). -/
def effSleep (t : TileAddr) (f : FmtC) (limit : Nat) (s : State) : State :=
  let T := s.tile t
  let nap : Nap := { rest := .entering, mask := napMask f, limit := limit, sd := f.sd.toNat }
  if T.wakeLatch &&& napMask f != 0 then
    s.setTile t (napFinish (s.partOf t).exact { T with nap := nap })
  else
    let s' := s.setTile t { T with nap := nap }
    let r := s'.region (regionOf t)
    s'.setRegion (regionOf t) { r with entries := r.entries ++ [t] }

def execSleep (t : TileAddr) (f : FmtC) (s : State) : Out :=
  let T := s.tile t
  .next (seqStep s t (f.word 0x23) (specSleep T f) (effSleep t f (napLimit T f)))

def specSpin (f : FmtC) : IssueSpec := { needs := src2Needs f }

/-- SPIN waits unless a masked wire is latched, or mask and limit are both zero. -/
def effSpin (t : TileAddr) (f : FmtC) (limit : Nat) (s : State) : State :=
  let T := s.tile t
  let nap : Nap := { rest := .spin, mask := napMask f, limit := limit, sd := f.sd.toNat }
  if T.wakeLatch &&& napMask f != 0 || (napMask f == 0 && limit == 0) then
    s.setTile t (napFinish (s.partOf t).exact { T with nap := nap })
  else s.setTile t { T with nap := nap }

def execSpin (t : TileAddr) (f : FmtC) (s : State) : Out :=
  let T := s.tile t
  .next (seqStep s t (f.word 0x24) (specSpin f) (effSpin t f (napLimit T f)))

/-! ### BARA and BARW (R140) -/

def barNo (f : FmtC) : Nat := f.imm.toNat % 32
def barBit (f : FmtC) : Word := BitVec.ofNat 32 (2 ^ barNo f)
def barFlt (c : Bool) (f : FmtC) : Flt := if c then none else some (codeSync, barNo f % 16)

def specBara (T : Tile) (f : FmtC) : IssueSpec :=
  { fault := barFlt (T.barMember.getLsbD (barNo f)) f
    own := if T.barPend.getLsbD (barNo f) then .other else .none }

/-- The sense flips and the arrival waits at the tile for the tree (BARRIER_ROOT_UPDATE). -/
def execBara (t : TileAddr) (f : FmtC) (s : State) : Out :=
  .next (seqStep s t (f.word 0x25) (specBara (s.tile t) f) fun s =>
    s.mapTile t fun T => { T with barSense := T.barSense ^^^ barBit f, barPend := T.barPend ||| barBit f })

def specBarw (s : State) (t : TileAddr) (f : FmtC) : IssueSpec :=
  let T := s.tile t
  { fault := barFlt (T.barMember.getLsbD (barNo f) && T.barPend.getLsbD (barNo f)) f
    own := if (s.partOf t).release.getLsbD (barNo f) == T.barSense.getLsbD (barNo f) then .none else .barrier }

def execBarw (t : TileAddr) (f : FmtC) (s : State) : Out :=
  .next (seqStep s t (f.word 0x26) (specBarw s t f) fun s =>
    s.mapTile t fun T => { T with barPend := T.barPend &&& ~~~barBit f })

/-! ### HOLDREQ (R141) -/

/-- imm[15:0], or s[sb][15:0]. -/
def holdreqClk (T : Tile) (f : FmtC) : Nat := (src2 T f).toNat % 2 ^ 16

/-- Replaces the partition of a tile by `g` of it. -/
def State.mapPartOf (s : State) (t : TileAddr) (g : Partition → Partition) : State :=
  match (s.tile t).part with
  | some p => s.setPart p.val (g (s.part p.val))
  | none => s

/-- The tile is on own stall for n clk from the next clk (R214); n = 0 has no effect. -/
def effHoldreq (t : TileAddr) (n : Nat) (s : State) : State :=
  if n = 0 then s
  else (s.mapTile t fun T => { T with holdreq := n, holdreqOn := true }).mapPartOf t fun P => { P with hsHoldreq := true }

def execHoldreq (t : TileAddr) (f : FmtC) (s : State) : Out :=
  .next (seqStep s t (f.word 0x27) { needs := src2Needs f } (effHoldreq t (holdreqClk (s.tile t) f)))

/-! ### FENCE (R142) -/

/-- The bit of FENCE's mask that selects a class. -/
def classBit : SbClass → Nat
  | .memory => 0
  | .send => 1
  | .arith => 2
  | .serving => 3

/-- imm[3:0]; 0 selects all four. -/
def fenceMask (f : FmtC) : BitVec 4 := if f.imm.extractLsb' 0 4 = 0 then 15 else f.imm.extractLsb' 0 4

def specFence (T : Tile) (f : FmtC) : IssueSpec :=
  let m := fenceMask f
  { own := if T.sb.any (fun e => m.getLsbD (classBit e.cls)) || (m.getLsbD 1 && !T.mgmtQ.isEmpty) then .other else .none }

def execFence (t : TileAddr) (f : FmtC) (s : State) : Out :=
  .next (seqStep s t (f.word 0x28) (specFence (s.tile t) f) id)

end Sys2Proof.Machine
end

