-- ==== Sys2Proof/Machine/Memory.lean ====
section
/-! DEFINITION. The memory instructions DLOAD to COPY (R143–R152) and the serving moves DESC, TAKE, FLUSHP (R187–R193). -/
namespace Sys2Proof.Machine

/-- Granules per line with and without .S (R143). -/
def perLine (side : Bool) : Nat := if side then 36 else 32

/-- A full queue. -/
def fullIf (c : Bool) : Wait := if c then .queue else .none

/-- Read operations with a line that has not started: what the DRAM read queue holds (Table 2.7). -/
def Tile.readWaiting (T : Tile) : Nat := (T.readQ.filter fun o => decide (o.started < o.lines.length)).length

/-! ### DLOAD, DSTORE, DLATCH -/

/-- DLOAD (R143). Where both range registers fail, or the two lengths disagree, the detail names ad: of two bad ones the first in word order,
and for a length the destination (DESIGN CHOICE, log entry 106: Table 4.6 says only 'range register'). -/
def specDload (T : Tile) (f : FmtA) : IssueSpec :=
  let d := T.areg f.ad.toNat
  let c := T.areg f.as_.toNat
  { fault := firstFlt [rangesOk T [f.ad.toNat, f.as_.toNat], rangeUnless c.inColumn f.as_.toNat,
      rangeUnless (d.inPad && d.n == perLine (f.sfx.getLsbD 0) * c.n) f.ad.toNat]
    reads := [c], writes := [d], entry := some .memory
    own := fullIf (16 ≤ T.readWaiting) }

/-- Lines c.base … c.base + c.len − 1. -/
def Range.units (r : Range) : List Nat := List.range' r.lo r.n

def execDload (t : TileAddr) (f : FmtA) (s : State) : Out :=
  let T := s.tile t
  let op : ReadOp := { id := T.nextId, lines := (T.areg f.as_.toNat).units,
                       use := .pad (T.areg f.ad.toNat).lo (f.sfx.getLsbD 0) }
  .next (seqStep s t (f.word 0x40) (specDload T f) fun s => s.mapTile t fun T => { T with readQ := T.readQ ++ [op] })

/-- DSTORE (R143); what RANGE_FAULT names is as for DLOAD, and a length names the source (DESIGN CHOICE, log entry 106). A write operation
counts in the queue of 8 until its last line completes (DESIGN CHOICE, log entry 17: Table 2.7 says it of reads only). -/
def specDstore (T : Tile) (f : FmtA) : IssueSpec :=
  let c := T.areg f.ad.toNat
  let d := T.areg f.as_.toNat
  { fault := firstFlt [rangesOk T [f.ad.toNat, f.as_.toNat], rangeUnless c.inColumn f.ad.toNat,
      rangeUnless (d.inPad && d.n == perLine (f.sfx.getLsbD 0) * c.n) f.as_.toNat]
    reads := [d], writes := [c], entry := some .memory
    own := fullIf (8 ≤ T.writeQ.length) }

def execDstore (t : TileAddr) (f : FmtA) (s : State) : Out :=
  let T := s.tile t
  let c := T.areg f.ad.toNat
  let op : WriteOp := { id := T.nextId, line := c.lo, left := c.n, granule := (T.areg f.as_.toNat).lo,
                        side := f.sfx.getLsbD 0, flush := false }
  .next (seqStep s t (f.word 0x41) (specDstore T f) fun s => s.mapTile t fun T => { T with writeQ := T.writeQ ++ [op] })

def specDlatch (T : Tile) (f : FmtA) : IssueSpec :=
  let c := T.areg f.as_.toNat
  { fault := firstFlt [rangesOk T [f.as_.toNat], rangeUnless (c.inColumn && c.n == 1) f.as_.toNat]
    reads := [c], wrLatch := true, entry := some .memory
    own := fullIf (16 ≤ T.readWaiting) }

def execDlatch (t : TileAddr) (f : FmtA) (s : State) : Out :=
  let T := s.tile t
  let op : ReadOp := { id := T.nextId, lines := [(T.areg f.as_.toNat).lo], use := .latch }
  .next (seqStep s t (f.word 0x42) (specDlatch T f) fun s => s.mapTile t fun T => { T with readQ := T.readQ ++ [op] })

/-! ### SEND (R146) -/

def Tile.creditOf (T : Tile) (n : Nat) : Byte := FMap.get 0 T.credit n
def Tile.setCredit (T : Tile) (n : Nat) (v : Byte) : Tile := { T with credit := FMap.set 0 T.credit n v }

/-- .F, .NC and .STEP. -/
def sendF (f : FmtA) : Bool := f.sfx.getLsbD 0
def sendNC (f : FmtA) : Bool := f.sfx.getLsbD 1
def sendStep (f : FmtA) : Bool := f.sfx.getLsbD 2
/-- The credit counter, window or index: idx[3:0]. -/
def idxNo (f : FmtA) : Nat := f.idx.toNat % 16
/-- The form takes a credit. -/
def sendTakes (f : FmtA) : Bool := !sendNC f && !sendStep f

def specSend (s : State) (t : TileAddr) (f : FmtA) : IssueSpec :=
  let T := s.tile t
  let src := T.areg f.as_.toNat
  { needs := f.sx.toNat :: (if sendStep f then [] else [f.sy.toNat])
    fault := firstFlt [rangesOk T [f.as_.toNat],
      rangeUnless (src.inPad && src.n ≤ 512 && (!sendStep f || src.n == 2)) f.as_.toNat,
      targetFlt s t (T.sreg f.sx.toNat)]
    reads := [src], entry := some .send
    own := if sendTakes f && T.creditOf (idxNo f) == 0 then .credit else fullIf (12 ≤ T.sendQ.length) }

/-- The send operation: g0 is (s[sy] + imm)[13:0]. -/
def sendOp (T : Tile) (f : FmtA) : SendOp :=
  let src := T.areg f.as_.toNat
  { id := T.nextId, desc := false, step := sendStep f
    chan := if sendStep f then .mgmt else if sendF f then .flow else .sched
    dst := targetOf (T.sreg f.sx.toNat)
    g0 := (T.sreg f.sy.toNat + f.imm.setWidth 32).toNat % 2 ^ 14
    base := src.lo, n := src.n }

def effSend (t : TileAddr) (f : FmtA) (op : SendOp) (s : State) : State :=
  s.mapTile t fun T =>
    let T' := if sendTakes f then T.setCredit (idxNo f) (T.creditOf (idxNo f) - 1) else T
    { T' with sendQ := T'.sendQ ++ [op] }

def execSend (t : TileAddr) (f : FmtA) (s : State) : Out :=
  .next (seqStep s t (f.word 0x43) (specSend s t f) (effSend t f (sendOp (s.tile t) f)))

/-! ### WIN and CRED (R149–R151) -/

/-- A SEND is arriving at window n (R204). -/
def Tile.arrivingAt (T : Tile) (n : Nat) : Bool := T.arriving.any fun a => a.win == n && !a.drop

def Tile.setWindow (T : Tile) (n : Nat) (w : Window) : Tile := { T with wins := FMap.set {} T.wins n w }

/-- The expected count of WIN: imm, or the whole range when imm is zero. -/
def winExpected (f : FmtA) (w : Range) : Nat := if f.imm = 0 then 32 * w.n else f.imm.toNat

/-- The range of window n when it is open (R150). -/
def Tile.openRange (T : Tile) (n : Nat) : List Range :=
  if (T.window n).opened then [(T.window n).range] else []

/-- WIN is a write to the range it opens and, for a window that is open, to the range it leaves (R150). -/
def specWin (T : Tile) (f : FmtA) : IssueSpec :=
  let n := idxNo f
  let w := T.areg f.ad.toNat
  let busy : Wait := if T.arrivingAt n then .other else .none
  if f.sfx.getLsbD 0 then { writes := T.openRange n, exempt := some n, own := busy }
  else
    { fault := firstFlt [rangesOk T [f.ad.toNat], rangeUnless w.inPad f.ad.toNat,
        if winExpected f w % 32 = 0 && winExpected f w ≤ 32 * w.n &&
           !(List.range 16).any (fun m => m != n && (T.window m).opened && w.overlaps (T.window m).range)
        then none else some (codeWin, n)]
      writes := w :: T.openRange n, exempt := some n, own := busy }

def effWin (t : TileAddr) (f : FmtA) (w : Range) (s : State) : State :=
  s.mapTile t fun T =>
    let n := idxNo f
    if f.sfx.getLsbD 0 then T.setWindow n { T.window n with opened := false }
    else (T.setWindow n { opened := true, range := w, expected := winExpected f w }).setArrive n 0

def execWin (t : TileAddr) (f : FmtA) (s : State) : Out :=
  .next (seqStep s t (f.word 0x44) (specWin (s.tile t) f) (effWin t f ((s.tile t).areg f.ad.toNat)))

/-- imm[7:0], and the window of .R: imm[15:12]. -/
def credAmount (f : FmtA) : Nat := f.imm.toNat % 256
def credWindow (f : FmtA) : Nat := f.imm.toNat / 4096 % 16

def specCred (s : State) (t : TileAddr) (f : FmtA) : IssueSpec :=
  let T := s.tile t
  let r := f.sfx.getLsbD 0
  let m := credWindow f
  { needs := [f.sx.toNat]
    fault := firstFlt [illegalUnless (credAmount f != 0), targetFlt s t (T.sreg f.sx.toNat),
      if r && !(T.window m).opened then some (codeWin, m) else none]
    writes := if r then T.openRange m else []
    exempt := if r then some m else none
    own := if r && T.arrivingAt m then .other else fullIf T.wakeOrCred }

def effCred (t : TileAddr) (f : FmtA) (dst : TileAddr) (s : State) : State :=
  s.mapTile t fun T =>
    let T' := if f.sfx.getLsbD 0 then T.setArrive (credWindow f) 0 else T
    T'.inject { src := .tile t, dst := dst, body := .credit (idxNo f) (credAmount f) }

def execCred (t : TileAddr) (f : FmtA) (s : State) : Out :=
  let dst := targetOf ((s.tile t).sreg f.sx.toNat)
  .next (seqStep s t (f.word 0x45) (specCred s t f) (effCred t f dst))

/-! ### COPY (R152) -/

/-- The vector issue queue holds 4 beside the instruction in the unit (Table 2.7; log entry 17). -/
def vecFull (T : Tile) : Wait := fullIf (5 ≤ T.vecQ.length)
/-- The row engine's own queue, and the read queue for a form that streams the column (Table 5.8). -/
def rowFull (T : Tile) (streams : Bool) : Wait := fullIf (5 ≤ T.rowQ.length || (streams && 16 ≤ T.readWaiting))

/-- Enters the vector issue queue. -/
def effVec (t : TileAddr) (op : AOp) (s : State) : State := s.mapTile t fun T => { T with vecQ := T.vecQ ++ [op] }

/-- The vector operation of a word, its range registers and scalars copied at issue (R116). -/
def vecOp (T : Tile) (op : Nat) (f : FmtA) (total : Nat) : AOp :=
  { id := T.nextId, op := op, f := f
    d := T.areg f.ad.toNat, d1 := T.areg (f.ad.toNat + 1), d2 := T.areg (f.ad.toNat + 2)
    a := T.areg f.as_.toNat, a1 := T.areg (f.as_.toNat + 1), a2 := T.areg (f.as_.toNat + 2)
    b := T.areg f.at_.toNat, b1 := T.areg (f.at_.toNat + 1), b2 := T.areg (f.at_.toNat + 2)
    sx := T.sreg f.sx.toNat, sy := T.sreg f.sy.toNat, total := total }

/-- COPY (R152): ranges of different lengths, or that overlap, name ad (DESIGN CHOICE, log entry 106: Table 4.6 says only 'range
register'). -/
def specCopy (T : Tile) (f : FmtA) : IssueSpec :=
  let d := T.areg f.ad.toNat
  let a := T.areg f.as_.toNat
  { fault := firstFlt [rangesOk T [f.ad.toNat, f.as_.toNat], rangeUnless a.inPad f.as_.toNat,
      rangeUnless (d.inPad && d.n == a.n && !d.overlaps a) f.ad.toNat]
    reads := [a], writes := [d], entry := some .memory, own := vecFull T }

/-- COPY moves 8 granules per clk: its groups are of 8 granules. -/
def execCopy (t : TileAddr) (f : FmtA) (s : State) : Out :=
  let T := s.tile t
  .next (seqStep s t (f.word 0x46) (specCopy T f) (effVec t (vecOp T 0x46 f (cdiv (T.areg f.as_.toNat).n 8))))

/-! ### DESC and TAKE (R187–R189) -/

def specDesc (s : State) (t : TileAddr) (f : FmtA) : IssueSpec :=
  let T := s.tile t
  let src := T.areg f.as_.toNat
  { needs := [f.sx.toNat]
    fault := firstFlt [rangesOk T [f.as_.toNat], rangeUnless (src.inPad && src.n ≤ 32) f.as_.toNat,
      targetFlt s t (T.sreg f.sx.toNat)]
    reads := [src], entry := some .serving
    own := fullIf (12 ≤ T.sendQ.length) }

def descOp (T : Tile) (f : FmtA) : SendOp :=
  let src := T.areg f.as_.toNat
  { id := T.nextId, desc := true, step := false, chan := if sendF f then .flow else .sched
    dst := targetOf (T.sreg f.sx.toNat), g0 := 0, base := src.lo, n := src.n }

def execDesc (t : TileAddr) (f : FmtA) (s : State) : Out :=
  let op := descOp (s.tile t) f
  .next (seqStep s t (f.word 0x60) (specDesc s t f) fun s => s.mapTile t fun T => { T with sendQ := T.sendQ ++ [op] })

def specTake (T : Tile) (f : FmtA) : IssueSpec :=
  let d := T.areg f.ad.toNat
  { fault := firstFlt [rangesOk T [f.ad.toNat], rangeUnless (d.inPad && d.n == 1) f.ad.toNat]
    writes := [d], entry := some .serving
    own := if T.descQ.isEmpty then .descQueue else .none }

/-- The oldest descriptor leaves the queue; its writes come with SEQUENCER_ACCESS_DONE. -/
def effTake (t : TileAddr) (f : FmtA) (id base : Nat) (s : State) : State :=
  s.mapTile t fun T =>
    match T.descQ with
    | [] => T
    | g :: rest =>
      { T with
        descQ := rest
        pend := if f.sx = 0 then T.pend else T.pend ++ [f.sx.toNat]
        seqAcc := T.seqAcc ++ [.take id base f.sx.toNat g] }

def execTake (t : TileAddr) (f : FmtA) (s : State) : Out :=
  let T := s.tile t
  .next (seqStep s t (f.word 0x61) (specTake T f) (effTake t f T.nextId (T.areg f.ad.toNat).lo))

/-! ### FLUSHP (R192, R193) -/

def specFlushp (T : Tile) (f : FmtA) : IssueSpec :=
  let c := T.areg f.ad.toNat
  let b := T.areg f.as_.toNat
  { needs := if f.sfx.getLsbD 0 then [f.sx.toNat] else []
    fault := firstFlt [rangesOk T [f.ad.toNat, f.as_.toNat], rangeUnless c.inColumn f.ad.toNat,
      rangeUnless (b.inPad && b.n == 34 * c.n) f.as_.toNat]
    reads := [b], writes := [c], entry := some .serving
    own := fullIf (8 ≤ T.writeQ.length) }

def flushOp (T : Tile) (f : FmtA) : WriteOp :=
  let c := T.areg f.ad.toNat
  { id := T.nextId, line := c.lo, left := c.n, granule := (T.areg f.as_.toNat).lo, side := true, flush := true
    notice := if f.sfx.getLsbD 0 then some ((T.sreg f.sx.toNat).toNat % 8192, f.imm.toNat % 4096) else none }

def execFlushp (t : TileAddr) (f : FmtA) (s : State) : Out :=
  let op := flushOp (s.tile t) f
  .next (seqStep s t (f.word 0x63) (specFlushp (s.tile t) f) fun s =>
    (s.mapTile t fun T => { T with writeQ := T.writeQ ++ [op] }).promise t op.id op.notice.isSome)

end Sys2Proof.Machine
end

