-- ==== Sys2Proof/Machine/Column.lean ====
section
/-! DEFINITION. The tier ports of a column: reads, writes, retries, forced grants and refresh (R32–R38, R55–R57, R144, R192). -/
namespace Sys2Proof.Machine

/-! ### Reads -/

/-- Delivers a line to its consumer. -/
def deliverLine (T : Tile) (o : ReadOp) (ln : Line) : Tile :=
  match o.use with
  | .pad g side =>
    let T' := T.setPad g 0 ln.data
    if side then T'.setPad (g + 32) 0 ln.side else T'
  | .latch => { T with latch := ln }
  | .rowEngine => { T with lineBuf := T.lineBuf ++ [{ id := o.id, line := ln }] }

/-- The place of the next line of a read operation. -/
def ReadUse.next : ReadUse → ReadUse
  | .pad g side => .pad (g + perLine side) side
  | u => u

/-- After a line: the operation leaves with its last line; DLOAD and DLATCH then release their entries (R144, R145), a row-engine
instruction keeps its own (R166). -/
def afterRead (T : Tile) (o : ReadOp) (rest : List Nat) (q : List ReadOp) : Tile :=
  if rest.isEmpty then
    { (match o.use with
       | .rowEngine => T
       | _ => T.release o.id) with readQ := q }
  else { T with readQ := { o with lines := rest, use := o.use.next, started := o.started - 1 } :: q }

/-- The line in front of the reads reaches its consumer (R35). -/
def readLine (T : Tile) : Tile :=
  match T.readQ with
  | [] => T
  | o :: q =>
    match o.lines with
    | [] => afterRead T o [] q
    | n :: rest => afterRead (deliverLine { T with reads := T.reads + 1 } o (T.line n)) o rest q

/-- The tier ports can start a line: no burst runs or waits for a line boundary, and no line write has begun (R37, R38, R56). -/
def Tile.portFree (T : Tile) : Bool := !T.refreshing && !T.burstDue && T.writing.isNone

/-- The front read may deliver a line: it has started, or can start now (R35, R61). A line for the scratchpad waits for the earlier
STC.M words (R119). -/
def Tile.readReady (T : Tile) (isHeld : Bool) : Bool :=
  match T.readQ with
  | [] => false
  | o :: _ =>
    (o.started != 0 || (T.portFree && !isHeld)) &&
    (match o.use with
     | .pad _ _ => T.inOrder o.id
     | _ => true)

/-- A line arrives. One of a P4 or P5 reader is taken by that reader's own step; here it and its note are counted (R29, Table 2.8). -/
def execColumnReadLine (v : Visit) (low : Bool) (s : State) : Out :=
  let s' := s.noted v.tile v.note
  if low then .next (s'.mapTile v.tile fun T => { T with reads := T.reads + 1 })
  else if (s.tile v.tile).readReady (held s v.tile) then .next (s'.mapTile v.tile readLine) else .next s

/-- A read meets an uncorrectable word: a clean retry is counted and the line follows later; otherwise the line is never
delivered and the tile faults (R36). -/
def execReadRetry (t : TileAddr) (r : Retry) (s : State) : Out :=
  if !r.low && (s.tile t).readQ.isEmpty then .next s
  else if r.clean then .next (s.mapTile t fun T => T.count ctrRetry 1)
  else .next (tileFault (if r.low then s else s.mapTile t fun T => { T with readQ := T.readQ.tail }) t codeUncorrectable 0 true)

/-! ### Writes -/

/-- The line that a DSTORE or FLUSHP writes next: without .S a DSTORE leaves the side field; FLUSHP writes side bytes 64–127
as zero (R143, R192). -/
def writeData (T : Tile) (o : WriteOp) : List Byte × Option (List Byte) :=
  (T.padBytes o.granule 0 1024,
   if o.flush then some (T.padBytes (o.granule + 32) 0 64 ++ List.replicate 64 0)
   else if o.side then some (T.padBytes (o.granule + 32) 0 128) else none)

/-- Granules between the lines of a write operation. -/
def WriteOp.stride (o : WriteOp) : Nat := if o.flush then 34 else perLine o.side

/-- The line in front of the write queue is written; the last one releases the entry, and with .N the page-full notice may leave
(R193). -/
def writeLine (s : State) (t : TileAddr) : State :=
  let T := s.tile t
  match T.writeQ with
  | [] => s
  | o :: q =>
    let d := writeData T o
    let T1 := T.setLine o.line d.1 d.2
    if o.left ≤ 1 then
      let T2 := { T1.release o.id with writeQ := q }
      s.setTile t (match o.notice with
        | some (row, layer) => T2.notify o.id (rimFlit s t (.pageFull row layer))
        | none => T2)
    else
      s.setTile t { T1 with
        writeQ := { o with line := o.line + 1, left := o.left - 1, granule := o.granule + o.stride } :: q }

/-- The first waiting access of the lowest level number, and the others. -/
def pickLow (lv : Nat) : List LowAccess → Option (LowAccess × List LowAccess)
  | [] => none
  | a :: as =>
    if a.level = lv then some (a, as)
    else match pickLow lv as with
      | some (b, bs) => some (b, a :: bs)
      | none => none

/-- Performs a waiting access of level `lv` at the tier port; whoever waits for the line hears of it (R302, R342). -/
def lowLine (s : State) (t : TileAddr) (lv : Nat) : State :=
  let T := s.tile t
  match pickLow lv T.low with
  | none => s
  | some (a, rest) =>
    let s' := s.setTile t { (T.setLine a.line a.data.data (some a.data.side)) with low := rest }
    match a.ack with
    | some who => ackLine s' T.part who
    | none => s'

/-- The front of the write queue is a FLUSHP (`flush`) or a DSTORE that may read the scratchpad (R119). -/
def Tile.frontWrite (T : Tile) (flush : Bool) : Bool :=
  match T.writeQ with
  | o :: _ => o.flush == flush && T.inOrder o.id
  | [] => false

/-- A FLUSHP line waits: level P2. -/
def Tile.flushWaits (T : Tile) : Bool := T.frontWrite true

/-- An access of level `lv` waits at the tier port. -/
def Tile.waitsAt (T : Tile) (lv : Nat) : Bool := (lv == 2 && T.flushWaits) || T.low.any (fun a => a.level == lv)

/-- Something below P1 waits. -/
def Tile.lowWaits (T : Tile) : Bool := T.flushWaits || !T.low.isEmpty

/-- A P1 access waits: a read line that has not started, or a DSTORE. -/
def Tile.highWaits (T : Tile) : Bool := T.readWaiting != 0 || T.frontWrite false

/-- The write that has begun completes. -/
def finishWrite (s : State) (t : TileAddr) (w : Writing) : State :=
  (match w with
   | .queue => writeLine s t
   | .low lv => lowLine s t lv).mapTile t fun T => { T with writing := none }

/-- The write that serves level `lv`: a FLUSHP line first at P2. -/
def Tile.serving (T : Tile) (lv : Nat) : Writing := if lv = 2 && T.flushWaits then .queue else .low lv

/-- Serves a write that begins now: the counts of service below P1 start again, at the banks too for a FLUSHP line (R56, R57). -/
def serveLow (s : State) (t : TileAddr) (lv : Nat) : State :=
  let w := (s.tile t).serving lv
  (finishWrite s t w).mapTile t fun T =>
    { T with starve := 0, bankStarve := if w = .queue then [] else T.bankStarve }

/-- The lowest level number that waits. -/
def Tile.firstLow (T : Tile) : Nat := if T.waitsAt 2 then 2 else if T.waitsAt 3 then 3 else if T.waitsAt 4 then 4 else 5

/-- A line write completes at the tier ports: the one that has begun, or else one that can begin now: P1 first, then P2 to P5 in a clk
with no P1 access (R56, R61). -/
def execColumnWriteLine (v : Visit) (s : State) : Out :=
  let T := s.tile v.tile
  let s' := s.noted v.tile v.note
  match T.writing with
  | some w => .next (finishWrite s' v.tile w)
  | none =>
    if !T.portFree || held s v.tile then .next s
    else if T.frontWrite false then .next (writeLine s' v.tile)
    else if T.highWaits || !T.lowWaits then .next s
    else .next (serveLow s' v.tile T.firstLow)

/-- The next waiting level after `r` in the rotation P2, P3, P4, P5 (R56). -/
def Tile.rotLow (T : Tile) (r : Nat) : Nat :=
  let nx := fun k => 2 + (r - 2 + k) % 4
  if T.waitsAt (nx 1) then nx 1 else if T.waitsAt (nx 2) then nx 2 else if T.waitsAt (nx 3) then nx 3 else nx 4

/-- After 1,024 clk without service a port serves one access of the next waiting level; at a bank the waiting buffer read of a
FLUSHP is let in, and a requester refused meanwhile counts (R56, R57, R206). Each forced grant is counted. -/
def execForcedGrant (t : TileAddr) (bank : Option BankGrant) (s : State) : Out :=
  let T := s.tile t
  match bank with
  | none =>
    if !T.portFree || held s t || !T.lowWaits || T.starve < 1024 then .next s
    else
      let lv := T.rotLow T.lowRot
      .next ((serveLow s t lv).mapTile t fun T => { (T.count ctrForcedGrant 1) with lowRot := lv })
  | some b =>
    if !T.flushWaits || FMap.get 0 T.bankStarve b.bank.val < 1024 then .next s
    else .next (s.mapTile t fun T =>
      { (T.noted { waits := if b.refused then [b.bank] else [] }).count ctrForcedGrant 1 with
        bankStarve := FMap.set 0 T.bankStarve b.bank.val 0 })

/-- What the tier ports start in a clk: a line of the first read that has one left, else a DSTORE, else the first waiting level
(R35, R56). -/
def startRead : List ReadOp → List ReadOp
  | [] => []
  | o :: q => if o.started < o.lines.length then { o with started := o.started + 1 } :: q else o :: startRead q

def startLine (isHeld : Bool) (T : Tile) : Tile :=
  if !T.portFree || isHeld then T
  else if T.readWaiting != 0 then { T with readQ := startRead T.readQ }
  else if T.frontWrite false then { T with writing := some .queue }
  else if T.lowWaits then
    let w := T.serving T.firstLow
    { T with writing := some w, starve := 0, bankStarve := if w = .queue then [] else T.bankStarve }
  else T

/-! ### Refresh (R37, R38) -/

/-- Local physical row of a logical tile: one north of every mapped-out tile at or below it (R16, R17). -/
def localRow (R : Region) (t : TileAddr) : Nat :=
  let l := t.row.val % 27
  if R.mapped.any (fun m => m.1 == t.col.val % 28 && decide (m.2 ≤ l)) then l + 1 else l

/-- The refresh phase q of a tile (R37). -/
def phaseOf (R : Region) (t : TileAddr) : Nat := (28 * localRow R t + t.col.val % 28) % 16

/-- T of a region: 2,048 above 85 °C, else 4,096. -/
def refreshPeriod (R : Region) : Nat := if R.hot then 2048 else 4096

/-- A burst of this tile falls due at this value of the region's counter. -/
def dueNow (R : Region) (t : TileAddr) : Bool :=
  R.refresh % refreshPeriod R == phaseOf R t * refreshPeriod R / 16

/-- Local physical row of the tile of `t`'s column that no logical position uses: the mapped-out one, else the northernmost (R17). -/
def spareRow (R : Region) (t : TileAddr) : Nat :=
  match R.mapped.find? (fun m => m.1 == t.col.val % 28) with
  | some m => m.2
  | none => 27

/-- The spare column's burst falls due at this value of the region's counter. -/
def spareDueNow (R : Region) (t : TileAddr) : Bool :=
  R.refresh % refreshPeriod R == (28 * spareRow R t + t.col.val % 28) % 16 * refreshPeriod R / 16

/-- A spare column's burst starts, or waits for the next clk when 49 have started (R37). -/
def startSpare (R : Region) (c : Nat) : Region :=
  if R.starts < 49 then
    { R with starts := R.starts + 1, spareOn := c :: R.spareOn.erase c, spareDue := R.spareDue.erase c }
  else { R with spareDue := c :: R.spareDue.erase c }

/-- Starts a burst, counted against the region's 49 starts of this clk; with none left, or while a line write completes, it waits
(R37, R38). -/
def startBurst (s : State) (t : TileAddr) (owed : Nat) : State :=
  let r := regionOf t
  let R := s.region r
  if R.starts < 49 && (s.tile t).writing.isNone then
    (s.mapTile t fun T => { T with refreshing := true, burstDue := false, owed := owed }).setRegion r
      { R with starts := R.starts + 1 }
  else s.mapTile t fun T => { T with burstDue := true }

/-- A burst falls due (a region out of service counts no bursts; its column is off or in self-refresh, Table 12.6): deferred while reads wait or are in flight, forced when refresh_defer_max are owed already; with only writes or
low accesses waiting, or none, it starts (R38). During an earlier burst it can only wait for its start. -/
def execRefreshDue (c : ColumnOf) (s : State) : Out :=
  let T := s.tile c.tile
  let R := s.region (regionOf c.tile)
  if !R.inService then .next s
  else if c.spare then
    if spareDueNow R c.tile then .next (s.setRegion (regionOf c.tile) (startSpare R (c.tile.col.val % 28))) else .next s
  else if !dueNow R c.tile then .next s
  else
    let begin_ := fun (s : State) =>
      if T.refreshing then s.mapTile c.tile fun T => { T with burstDue := true } else startBurst s c.tile T.owed
    if T.readQ.isEmpty then .next (begin_ s)
    else if T.owed < T.deferMax then .next (s.mapTile c.tile fun T => { T with owed := T.owed + 1 })
    else .next (begin_ (s.mapTile c.tile fun T => T.count ctrRefreshForced 1))

/-- An owed burst starts once nothing waits at the ports; a burst that waits for its start goes first (R37, R38). -/
def execRefreshRepay (c : ColumnOf) (s : State) : Out :=
  let T := s.tile c.tile
  let R := s.region (regionOf c.tile)
  if !R.inService then .next s
  else if c.spare then
    if R.spareDue.contains (c.tile.col.val % 28) && !R.spareOn.contains (c.tile.col.val % 28) then
      .next (s.setRegion (regionOf c.tile) (startSpare R (c.tile.col.val % 28)))
    else .next s
  else if T.refreshing then .next s
  else if T.burstDue then .next (startBurst s c.tile T.owed)
  else if T.owed = 0 || !T.readQ.isEmpty || !T.writeQ.isEmpty || !T.low.isEmpty then .next s
  else if 49 ≤ R.starts || T.writing.isSome then .next s
  else .next (startBurst s c.tile (T.owed - 1))

/-- The burst ends. -/
def execRefreshBurstDone (c : ColumnOf) (s : State) : Out :=
  if c.spare then
    let R := s.region (regionOf c.tile)
    .next (s.setRegion (regionOf c.tile) { R with spareOn := R.spareOn.erase (c.tile.col.val % 28) })
  else .next (s.mapTile c.tile fun T => { T with refreshing := false })

end Sys2Proof.Machine
end

