-- ==== Sys2Proof/Machine/Numbers.lean ====
section
/-! DEFINITION. Element formats, exact values, rounding, the keyed generator and the transcendental functions
(R64–R94, R99, R181). All arithmetic is on integers. -/
namespace Sys2Proof.Machine

/-! ### Wide formats (R76): `p` fraction bits, 7 for W16 and 23 for F32 -/

/-- The value of a W16 or F32 element; a finite non-zero one is m × 2^e with m > 0. -/
inductive Fl where
  | nan
  | inf (neg : Bool)
  | zero (neg : Bool)
  | fin (neg : Bool) (m : Nat) (e : Int)
  deriving DecidableEq, Repr, Inhabited

/-- ⌊log2 n⌋ for n > 0. -/
def ilog2 (n : Nat) : Nat := Nat.log2 n

/-- Reads an element; exponent field 0 is a zero of its sign (R76). -/
def Fl.decode (p : Nat) (bits : Nat) : Fl :=
  let neg := bits / 2 ^ (p + 8) % 2 == 1
  let ex := bits / 2 ^ p % 256
  let fr := bits % 2 ^ p
  if ex = 0 then .zero neg
  else if ex = 255 then (if fr = 0 then .inf neg else .nan)
  else .fin neg (2 ^ p + fr) (Int.ofNat ex - 127 - p)

/-- x(v): the unbiased exponent of a finite non-zero value (R77). -/
def magX (m : Nat) (e : Int) : Int := Int.ofNat (ilog2 m) + e

/-- Writes an element already on the format's grid; x(v) above 127 is an infinity, below −126 a zero of the sign (R76). -/
def Fl.encode (p : Nat) : Fl → Nat
  | .nan => 255 * 2 ^ p + 2 ^ (p - 1)
  | .inf n => (if n then 2 ^ (p + 8) else 0) + 255 * 2 ^ p
  | .zero n => if n then 2 ^ (p + 8) else 0
  | .fin n m e =>
    let x := magX m e
    let s := if n then 2 ^ (p + 8) else 0
    if x > 127 then s + 255 * 2 ^ p
    else if x < -126 then s
    else s + (x + 127).toNat * 2 ^ p + (m * 2 ^ (p - ilog2 m) / 2 ^ (ilog2 m - p)) % 2 ^ p

/-- A rounding mode: to nearest even, or stochastic with the top 16 bits of a generator word (R84, R85). -/
inductive Rnd where
  | rne
  | sr (u : Nat)
  deriving DecidableEq, Repr, Inhabited

/-- Rounds q + r / 2^s, 0 ≤ r < 2^s, carrying a sign: the magnitude q or q + 1. -/
def roundUp (mode : Rnd) (neg : Bool) (q r s : Nat) : Bool :=
  if r = 0 then false
  else match mode with
    | .rne => 2 ^ s < 2 * r || (2 * r == 2 ^ s && q % 2 == 1)
    | .sr u =>
      if neg then !(decide (u < (2 ^ s - r) * 2 ^ 16 / 2 ^ s)) else decide (u < r * 2 ^ 16 / 2 ^ s)

/-- Rounds a magnitude m × 2^e to p + 1 significant bits, with no lower limit of the exponent (R76). -/
def roundMag (p : Nat) (mode : Rnd) (neg : Bool) (m : Nat) (e : Int) : Fl :=
  if m = 0 then .zero neg
  else
    let l := ilog2 m
    if l ≤ p then .fin neg m e
    else
      let s := l - p
      let q := m / 2 ^ s
      let q' := if roundUp mode neg q (m % 2 ^ s) s then q + 1 else q
      .fin neg q' (e + s)

/-- The value written in the format: out-of-range magnitudes become infinities or zeros of their sign (R76). -/
def Fl.settle (v : Fl) : Fl :=
  match v with
  | .fin n m e => if magX m e > 127 then .inf n else if magX m e < -126 then .zero n else v
  | v => v

/-- A signed exact value i × 2^e, rounded and settled; an exact zero takes the sign `z`. -/
def roundInt (p : Nat) (mode : Rnd) (z : Bool) (i : Int) (e : Int) : Fl :=
  if i = 0 then .zero z else (roundMag p mode (decide (i < 0)) i.natAbs e).settle

/-- The signed mantissa of a value, 0 unless it is finite and non-zero. -/
def Fl.mant : Fl → Int
  | .fin n m _ => if n then -(Int.ofNat m) else Int.ofNat m
  | _ => 0

def Fl.expo : Fl → Int
  | .fin _ _ e => e
  | _ => 0

def Fl.isFinite : Fl → Bool
  | .fin _ _ _ => true
  | .zero _ => true
  | _ => false

def Fl.isZero : Fl → Bool
  | .zero _ => true
  | _ => false

def Fl.neg : Fl → Bool
  | .nan => false
  | .inf n => n
  | .zero n => n
  | .fin n _ _ => n

def Fl.negate : Fl → Fl
  | .nan => .nan
  | .inf n => .inf !n
  | .zero n => .zero !n
  | .fin n m e => .fin (!n) m e

/-- i × 2^e + j × 2^f as a mantissa over the lower exponent. -/
def addDy (i e j f : Int) : Int × Int :=
  if e ≤ f then (i + j * 2 ^ (f - e).toNat, e) else (i * 2 ^ (e - f).toNat + j, f)

/-- a + b, rounded once to nearest even (R179). -/
def Fl.add (p : Nat) (a b : Fl) : Fl :=
  match a, b with
  | .nan, _ => .nan
  | _, .nan => .nan
  | .inf n, .inf k => if n == k then .inf n else .nan
  | .inf n, _ => .inf n
  | _, .inf n => .inf n
  | .zero n, .zero k => .zero (n && k)
  | a, b =>
    let r := addDy a.mant a.expo b.mant b.expo
    let r := if a.isZero then (b.mant, b.expo) else if b.isZero then (a.mant, a.expo) else r
    roundInt p .rne false r.1 r.2

/-- a × b exactly; a zero mantissa stands for a zero. -/
def Fl.mul (p : Nat) (a b : Fl) : Fl :=
  let n := a.neg != b.neg
  match a, b with
  | .nan, _ => .nan
  | _, .nan => .nan
  | .inf _, .zero _ => .nan
  | .zero _, .inf _ => .nan
  | .inf _, _ => .inf n
  | _, .inf _ => .inf n
  | a, b => roundInt p .rne n (a.mant * b.mant) (a.expo + b.expo)

/-- a × b + d with one rounding (R179). -/
def Fl.fma (p : Nat) (a b d : Fl) : Fl :=
  let n := a.neg != b.neg
  match a, b, d with
  | .nan, _, _ => .nan
  | _, .nan, _ => .nan
  | _, _, .nan => .nan
  | .inf _, .zero _, _ => .nan
  | .zero _, .inf _, _ => .nan
  | a, b, d =>
    if !a.isFinite || !b.isFinite then
      match d with
      | .inf k => if n == k then .inf n else .nan
      | _ => .inf n
    else match d with
      | .inf k => .inf k
      | d =>
        let pm := a.mant * b.mant
        let pe := a.expo + b.expo
        if pm = 0 then (if d.isZero then .zero (n && d.neg) else (roundInt p .rne false d.mant d.expo))
        else if d.isZero then roundInt p .rne n pm pe
        else let r := addDy pm pe d.mant d.expo
             roundInt p .rne false r.1 r.2

/-- An order key: a < b as the numbers they are; NaN aside. -/
def Fl.lt (a b : Fl) : Bool :=
  match a, b with
  | .nan, _ => false
  | _, .nan => false
  | .inf n, .inf k => n && !k
  | .inf n, _ => n
  | _, .inf k => !k
  | a, b =>
    if a.isZero then decide (0 < b.mant) else if b.isZero then decide (a.mant < 0)
    else let r := addDy a.mant a.expo (-b.mant) b.expo
         decide (r.1 < 0)

/-- max(a, b): a NaN operand gives NaN, max(+0, −0) = +0 (R179). -/
def Fl.max (a b : Fl) : Fl :=
  match a, b with
  | .nan, _ => .nan
  | _, .nan => .nan
  | .zero n, .zero k => .zero (n && k)
  | a, b => if a.lt b then b else a

/-- The value rounded to an integer (R77, R92). -/
def roundToInt (mode : Rnd) (neg : Bool) (m : Nat) (e : Int) : Int :=
  let k : Int :=
    if 0 ≤ e then Int.ofNat (m * 2 ^ e.toNat)
    else
      let s := (-e).toNat
      let q := m / 2 ^ s
      Int.ofNat (if roundUp mode neg q (m % 2 ^ s) s then q + 1 else q)
  if neg then -k else k

/-- The value of an integer in a format: exact value i × 2^e rounded to nearest even. -/
def Fl.ofInt (p : Nat) (mode : Rnd) (i e : Int) : Fl := roundInt p mode false i e

/-! ### Transcendental functions (R181), each correctly rounded -/

/-- Fraction bits of the fixed-point exponential (log entry 18). -/
def expBits : Nat := 400

/-- Taylor terms w^n / n! in fixed point. -/
def expTaylor : Nat → Nat → Int → Int → Int → Int
  | 0, _, _, _, acc => acc
  | fuel + 1, n, w, term, acc =>
    let t := term * w / (2 ^ expBits * Int.ofNat n)
    expTaylor fuel (n + 1) w t (acc + t)

/-- Squares a fixed-point value k times. -/
def squares : Nat → Int → Int
  | 0, x => x
  | k + 1, x => squares k (x * x / 2 ^ expBits)

/-- ⌊exp(i × 2^e) × 2^400⌋ up to the last bits, for |i × 2^e| below 128: exp(w / 2^16) by its series, squared 16 times. -/
def expFix (i e : Int) : Nat :=
  let sh := e + Int.ofNat expBits - 16
  let w : Int := if 0 ≤ sh then i * 2 ^ sh.toNat else i / 2 ^ (-sh).toNat
  (squares 16 (expTaylor 40 1 w (2 ^ expBits) (2 ^ expBits))).toNat

/-- exp(v) rounded to nearest even (R181), which gives finite results beyond the −87 to 88 of Table 3.17's note up to overflow and down to
the normal range (DESIGN CHOICE between the two, log entry 106); never a tie but at v = 0, so a sticky bit stands for the bits below. -/
def Fl.exp (p : Nat) : Fl → Fl
  | .nan => .nan
  | .inf n => if n then .zero false else .inf false
  | .zero _ => .fin false 1 0
  | .fin n m e =>
    if magX m e ≥ 7 then (if n then .zero false else .inf false)
    else (roundMag p .rne false (2 * expFix (if n then -(Int.ofNat m) else m) e + 1) (-(Int.ofNat expBits) - 1)).settle

/-- 1 / v (R181). -/
def Fl.rcp (p : Nat) : Fl → Fl
  | .nan => .nan
  | .inf n => .zero n
  | .zero n => .inf n
  | .fin n m e =>
    let s := ilog2 m + 64
    let q := 2 ^ s / m
    let sticky := if 2 ^ s % m = 0 then 0 else 1
    (roundMag p .rne n (2 * q + sticky) (-(Int.ofNat s) - e - 1)).settle

/-- ⌊√n⌋ below 2^(k): bit by bit from 2^(k−1). -/
def isqrt : Nat → Nat → Nat → Nat
  | 0, _, r => r
  | k + 1, n, r => let c := r + 2 ^ k
                   isqrt k n (if c * c ≤ n then c else r)

/-- 1 / √v (R181). -/
def Fl.rsq (p : Nat) : Fl → Fl
  | .nan => .nan
  | .inf n => if n then .nan else .zero false
  | .zero n => .inf n
  | .fin n m e =>
    if n then .nan
    else
      let m' := if e % 2 = 0 then m else 2 * m
      let e' := if e % 2 = 0 then e else e - 1
      let q := isqrt 66 (2 ^ 128 / m') 0
      let sticky := if q * q * m' = 2 ^ 128 then 0 else 1
      (roundMag p .rne false (2 * q + sticky) (-64 - e' / 2 - 1)).settle

/-! ### The keyed generator (R87) -/

structure GenState where
  k0 : Word
  k1 : Word
  x0 : Word
  x1 : Word
  x2 : Word
  x3 : Word
  deriving DecidableEq, Repr

/-- One round of keyed_word. -/
def genRound (g : GenState) : GenState :=
  let x0 := g.x0 + g.x3 + g.k0
  let x1 := (g.x1 ^^^ x0).rotateLeft 11
  let x2 := g.x2 + x1 + g.k1
  let x3 := (g.x3 ^^^ x2).rotateLeft 19
  { x0 := x0 * 0x8F1B6A2D, x1 := x1, x2 := x2 * 0x3C5ED9B7, x3 := x3
    k0 := g.k0 + 0x7A4E1F69, k1 := g.k1 + 0xE16D3A85 }

def genRounds : Nat → GenState → GenState
  | 0, g => g
  | n + 1, g => genRounds n (genRound g)

/-- keyed_word (R87). -/
def keyedWord (seed : DWord) (req tok : Word) (layer site : Nat) (elem : Word) : Word :=
  let g := genRounds 6
    { k0 := seed.extractLsb' 0 32, k1 := seed.extractLsb' 32 32, x0 := tok, x1 := elem
      x2 := BitVec.ofNat 32 (layer * 16 ||| site), x3 := req }
  g.x0 ^^^ g.x1 ^^^ g.x2 ^^^ g.x3

/-! ### Arithmetic events (Table 3.13) as a mask: bit n is bit n of PRT_n.EVT_STAT -/

def evAccRange : BitVec 4 := 1
def evQntRange : BitVec 4 := 2
def evFmtReserved : BitVec 4 := 4
def evInvalid : BitVec 4 := 8

/-- ARITH_INVALID when finite operands give a NaN or an infinity. -/
def evtOf (finite : Bool) (r : Fl) : BitVec 4 := if finite && !r.isFinite then evInvalid else 0

/-! ### Conversion to INT32 (R77) -/

/-- Saturates at −2^31 and 2^31 − 1, with QNT_RANGE. -/
def satInt32 (i : Int) : Word × BitVec 4 :=
  if i < -(2 ^ 31) then (0x80000000, evQntRange)
  else if 2 ^ 31 ≤ i then (0x7FFFFFFF, evQntRange) else (BitVec.ofInt 32 i, 0)

def flToInt32 (mode : Rnd) : Fl → Word × BitVec 4
  | .nan => (0, evInvalid)
  | .inf n => (if n then 0x80000000 else 0x7FFFFFFF, evQntRange)
  | .zero _ => (0, 0)
  | .fin n m e => if magX m e ≥ 40 then (if n then 0x80000000 else 0x7FFFFFFF, evQntRange)
                  else satInt32 (roundToInt mode n m e)

/-! ### Long accumulators (R78–R82) -/

/-- add_contribution (R80). -/
def Acc.addContribution (a : Acc) (s k kmax : Int) : Acc × BitVec 4 :=
  if s = 0 then (a, 0)
  else
    let beyond := decide (kmax < k)
    let k := if beyond then kmax else k
    let a := if beyond then { a with hi := true } else a
    let ev := if beyond then evAccRange else 0
    if -48 ≤ k then ({ a with value := a.value + BitVec.ofInt 104 (s * 2 ^ (k + 48).toNat) }, ev)
    else
      let d := (-48 - k).toNat
      let t : Nat := s.natAbs / 2 ^ d
      let lost := t * 2 ^ d != s.natAbs
      let v : Int := if s < 0 then -(Int.ofNat t) else Int.ofNat t
      ({ a with value := a.value + BitVec.ofInt 104 v, lo := a.lo || lost }, if lost then ev ||| evAccRange else ev)

/-- A value on the exact-sum path (R79, R80): kmax 35 for W16, 23 for F32; NaN and infinity set inv. -/
def Acc.addValue (a : Acc) (p : Nat) (v : Fl) : Acc × BitVec 4 :=
  match v with
  | .zero _ => (a, 0)
  | .fin n m e => a.addContribution (if n then -(Int.ofNat m) else Int.ofNat m) e (if p = 7 then 35 else 23)
  | _ => ({ a with inv := true }, evInvalid)

/-- The 104-bit value clamped to 96 bits (R82). -/
def Acc.clamped (a : Acc) : Int × BitVec 4 :=
  let t := a.value.toInt
  if t < -(2 ^ 95) then (-(2 ^ 95), evAccRange) else if 2 ^ 95 ≤ t then (2 ^ 95 - 1, evAccRange) else (t, 0)

/-- ACCOUT to W16 or F32 (R82): the value is t × 2^(−48 + sh). -/
def Acc.readFl (a : Acc) (p : Nat) (sh : Int) (mode : Rnd) : Fl × BitVec 4 :=
  if a.inv then (.nan, evInvalid)
  else
    let c := a.clamped
    let r := roundInt p mode false c.1 (-48 + sh)
    (r, c.2 ||| evtOf true r)

/-- ACCOUT.I32 (R82, R174). -/
def Acc.readInt (a : Acc) (sh : Int) (mode : Rnd) : Word × BitVec 4 :=
  if a.inv then (0, evInvalid)
  else
    let c := a.clamped
    let r := satInt32 (roundToInt mode (decide (c.1 < 0)) c.1.natAbs (-48 + sh))
    (r.1, c.2 ||| r.2)

/-! ### Block scales (R67, R68) and quantisation -/

/-- Clamps a computed exponent to the produced range of Table 3.2: top 124 for 4-bit, 120 for 8-bit formats. -/
def clampScale (wide : Bool) (e : Int) : Int × BitVec 4 :=
  let top : Int := if wide then 120 else 124
  if top < e then (top, evQntRange) else if e < -126 then (-126, evQntRange) else (e, 0)

/-- The E8 code of an exponent. -/
def scaleCode (e : Int) : Nat := (e + 127).toNat

/-- Rounds v / 2^e to a code of 4 or 8 bits, saturating (R92). -/
def quantCode (wide : Bool) (mode : Rnd) (e : Int) (v : Fl) : Int :=
  let lim : Int := if wide then 128 else 8
  match v with
  | .fin n m k =>
    if magX m (k - e) ≥ 12 then (if n then -lim else lim - 1)
    else max (-lim) (min (lim - 1) (roundToInt mode n m (k - e)))
  | _ => 0

/-- v / 2^e is an integer, so that no word is drawn for it (R85). -/
def Fl.onGrid (e : Int) : Fl → Bool
  | .fin _ m k => decide (0 ≤ k - e) || m % 2 ^ (e - k).toNat == 0
  | _ => true

/-- The order key of a magnitude among elements of one format: exponent and fraction bits; zero for a zero. -/
def magKey (p bits : Nat) : Nat := if bits / 2 ^ p % 256 = 0 then 0 else bits % 2 ^ (p + 8)

/-- x(v) from a non-zero key. -/
def keyX (p key : Nat) : Int := Int.ofNat (key / 2 ^ p) - 127

/-- Inserts in descending order, equal keys after those already there. -/
def insertDesc (x : Nat × Nat) : List (Nat × Nat) → List (Nat × Nat)
  | [] => [x]
  | y :: ys => if y.1 < x.1 then x :: y :: ys else y :: insertDesc x ys

/-- (key, index) pairs by descending key, equal keys by ascending index. -/
def sortDesc (l : List (Nat × Nat)) : List (Nat × Nat) := l.foldl (fun acc x => insertDesc x acc) []

/-- The form QACT chooses for a block. -/
inductive Form where
  | a4
  | a8
  | w16
  deriving DecidableEq, Repr, Inhabited

/-- A classified block: form, exponent and the outlier indices in element order (R91). -/
structure Shape where
  form : Form
  e    : Int
  outs : List Nat
  deriving DecidableEq, Repr

/-- R91 and, in 3100 mode, R104 on the (key, index) pairs of a block with no NaN or infinity, in descending order. -/
def classify (p : Nat) (m3100 : Bool) (sorted : List (Nat × Nat)) : Shape :=
  let m1 := (sorted.getD 0 (0, 0)).1
  if m1 = 0 then { form := .a4, e := 0, outs := [] }
  else
    let m9 := (sorted.getD 8 (0, 0)).1
    let xr := if m9 ≠ 0 then keyX p m9 else keyX p m1 - 2
    let isOut := fun (x : Nat × Nat) => x.1 != 0 && decide (xr + 3 ≤ keyX p x.1)
    let n := (sorted.filter isOut).length
    let take := if m3100 then (if n = 0 then 0 else 2) else n
    if m3100 || n ≤ 2 then
      let big := ((sorted.drop take).getD 0 (0, 0)).1
      { form := .a4, e := if big = 0 then 0 else keyX p big - 2
        outs := (List.range 32).filter fun i => (sorted.take take).any fun x => x.2 == i }
    else if keyX p m1 ≤ xr + 6 then { form := .a8, e := keyX p m1 - 6, outs := [] }
    else { form := .w16, e := 0, outs := [] }

/-- Packs 4-bit codes, element e in byte e / 2, low nibble for even e (R69, R72). -/
def packNibbles : List Int → List Byte
  | a :: b :: rest => BitVec.ofNat 8 ((a % 16).toNat + 16 * (b % 16).toNat) :: packNibbles rest
  | [a] => [BitVec.ofNat 8 (a % 16).toNat]
  | [] => []

/-- Two's complement value of a 4-bit field. -/
def nib (n : Nat) : Int := if n % 16 < 8 then Int.ofNat (n % 16) else Int.ofNat (n % 16) - 16

/-- Element e of a nibble-packed row that starts at byte `off`. -/
def nibAt (bs : List Byte) (off e : Nat) : Int :=
  let b := (bs.getD (off + e / 2) 0).toNat
  if e % 2 = 0 then nib b else nib (b / 16)

end Sys2Proof.Machine
end

