-- ==== Sys2Proof/Machine/Flags.lean ====
section
/-! DEFINITION. Every event and flag that a tile's work raises: arithmetic events (R100, R101), ladder clk (R96) and slips (R237). -/
namespace Sys2Proof.Machine

/-- The frame counter of arithmetic event `bit` (Table 3.14). -/
def arithCtr (bit : Nat) : Nat := ctrAccRange + 4 * bit

/-- Counts one arithmetic event and sets its bit of PRT_n.EVT_STAT (R100). -/
def raiseArithBit (s : State) (t : TileAddr) (bit : Nat) : State :=
  (s.mapTile t fun T => T.count (arithCtr bit) 1).raiseTile t bit

/-- Raises the events of `new` that the instruction has not raised yet: each once per instruction (R100). -/
def raiseArith (s : State) (t : TileAddr) (old new : BitVec 4) : State :=
  (List.range 4).foldl (fun s b => if new.getLsbD b && !old.getLsbD b then raiseArithBit s t b else s) s

/-- Extra ladder clk are counted, and in an exact-mode partition held by the tile (R96). -/
def spendLadder (s : State) (t : TileAddr) (extra : Nat) : State :=
  if extra = 0 then s
  else
    let exact := (s.partOf t).exact
    let s' := s.mapTile t fun T =>
      { (T.count ctrLadderClk extra) with ladder := if exact then T.ladder + extra else T.ladder }
    if exact then
      match (s.tile t).part with
      | some p => s'.setPart p.val { s'.part p.val with hsLadder := true }
      | none => s'
    else s'

/-- Cause of a slip in FIRST_SLIP (Table 7.18). -/
def slipCause : Wait → Nat
  | .none => 0
  | .range => 1
  | .fill => 2
  | .credit => 3
  | .queue => 4
  | .scalar => 5
  | .mailbox => 6
  | .descQueue => 7
  | .barrier => 8
  | .other => 8

/-- FIRST_SLIP of a slip at `pc`. -/
def slipWord (w : Wait) (pc : BitVec 11) : Word := BitVec.ofNat 32 (2 ^ 31 + slipCause w * 2 ^ 24 + pc.toNat)

/-- A slip: counted once for the instruction, recorded if it is the first, and the tile is on own stall from now (R237). -/
def recordSlip (s : State) (t : TileAddr) (w : Wait) : State :=
  let s' := s.mapTile t fun T =>
    { (T.count ctrSlip 1) with
      slip := true
      wait := w
      firstSlip := if T.firstSlip = 0 then slipWord w T.pc else T.firstSlip }
  match (s.tile t).part with
  | some p => s'.setPart p.val { s'.part p.val with hsSlip := true }
  | none => s'

/-- The check-stage counter that a stalled clk is counted in (R199). -/
def waitCtr : Wait → Option Nat
  | .range => some ctrRangeWait
  | .fill => some ctrFillWait
  | .credit => some ctrDrainWait
  | .barrier => some ctrBarWait
  | _ => none

end Sys2Proof.Machine
end

