-- ==== Sys2Proof/Machine/Fabric.lean ====
section
/-! DEFINITION. Injection, the mesh and deliveries (R51, R52, R146–R151, R187, R188, R200–R204, R218–R232, R504). -/
namespace Sys2Proof.Machine

def chanNo : Chan → Nat
  | .sched => 0
  | .mgmt => 1
  | .flow => 2

def portNo : Port → Nat
  | .north => 0
  | .east => 1
  | .south => 2
  | .west => 3
  | .loc => 4

def allPorts : List Port := [.north, .east, .south, .west, .loc]
def allChans : List Chan := [.sched, .mgmt, .flow]

/-- Depth of a channel's FIFO (R51, Table 7.2). -/
def fifoDepth : Chan → Nat
  | .mgmt => 2
  | _ => 8

def fifoKey (p : Port) (c : Chan) : Nat := 3 * portNo p + chanNo c
def Tile.fifoOf (T : Tile) (p : Port) (c : Chan) : List Flit := FMap.get [] T.fifo (fifoKey p c)
/-- Replaces an input FIFO; its head has waited no clk yet. -/
def Tile.setFifo (T : Tile) (p : Port) (c : Chan) (q : List Flit) : Tile :=
  { T with fifo := FMap.set [] T.fifo (fifoKey p c) q }
def Tile.ageOf (T : Tile) (p : Port) (c : Chan) : Nat := FMap.get 0 T.ages (fifoKey p c)
def Tile.deliverOf (T : Tile) (c : Chan) : List Flit := FMap.get [] T.deliver (chanNo c)
def Tile.setDeliver (T : Tile) (c : Chan) (q : List Flit) : Tile :=
  { T with deliver := FMap.set [] T.deliver (chanNo c) q }

/-- An input FIFO has room (R228). -/
def Tile.room (T : Tile) (p : Port) (c : Chan) : Bool := (T.fifoOf p c).length < fifoDepth c
def Tile.pushFifo (T : Tile) (p : Port) (c : Chan) (f : Flit) : Tile := T.setFifo p c (T.fifoOf p c ++ [f])

/-! ### Injection (R61, R146, R147, R187, R504) -/

/-- The next flit of a send operation: its head, payload flit k of two granules, or the one flit of SEND.STEP. -/
def sendFlit (T : Tile) (t : TileAddr) (o : SendOp) : Flit :=
  let body :=
    if o.step then .step (T.granule o.base) (T.granule (o.base + 1))
    else if o.stage = 0 then (if o.desc then .descHead o.n else .sendHead o.g0 o.n)
    else
      let k := 2 * (o.stage - 1)
      .payload ((List.range (min 2 (o.n - k))).map fun i => T.granule (o.base + k + i))
  { src := .tile t, dst := o.dst, body := body }

/-- The operation's last flit: SEND.STEP's only one, or payload flit ⌈n/2⌉ − 1. -/
def SendOp.lastFlit (o : SendOp) : Bool := o.step || o.stage == cdiv o.n 2

/-- One flit of the operation in front of the send queue is injected; the last one releases its entry. Its granules are read after
every earlier STC.M (R119). -/
def execSendInject (v : Visit) (s : State) : Out :=
  match (s.tile v.tile).sendQ with
  | [] => .next s
  | o :: q =>
    if held s v.tile || !(s.tile v.tile).room .loc o.chan || !(s.tile v.tile).inOrder o.id then .next s
    else
      let s := s.noted v.tile v.note
      let T := s.tile v.tile
      let T1 := T.pushFifo .loc o.chan (sendFlit T v.tile o)
      .next (s.setTile v.tile (if o.lastFlit then { T1.release o.id with sendQ := q }
                          else { T1 with sendQ := { o with stage := o.stage + 1 } :: q }))

/-- A fault report. -/
def Flit.isFault (f : Flit) : Bool :=
  match f.body with
  | .fault _ => true
  | _ => false

/-- The place of a notice whose operation has not completed (R186, R193). -/
def Flit.isDue (f : Flit) : Bool :=
  match f.body with
  | .due _ => true
  | _ => false

/-- The first flit that satisfies `c`, and the others. -/
def pickFlit (c : Flit → Bool) : List Flit → Option (Flit × List Flit)
  | [] => none
  | f :: fs =>
    if c f then some (f, fs)
    else match pickFlit c fs with
      | some (g, gs) => some (g, f :: gs)
      | none => none

/-- The flit that the management injection takes: the one in front, in issue order; under a hold, or while the notice in front still
waits for its operation, only a fault report (R61, R186). -/
def nextMgmt (isHeld : Bool) : List Flit → Option (Flit × List Flit)
  | [] => none
  | f :: q => if isHeld || f.isDue then pickFlit Flit.isFault (f :: q) else some (f, q)

def execMgmtInject (t : TileAddr) (s : State) : Out :=
  let T := s.tile t
  match nextMgmt (held s t) T.mgmtQ with
  | some (f, q) =>
    if T.room .loc .mgmt then .next (s.setTile t { T.pushFifo .loc .mgmt f with mgmtQ := q }) else .next s
  | none => .next s

/-! ### Routing (R224–R227) -/

/-- Where a flit goes from a router. -/
inductive Way where
  | out (p : Port)
  | rim
  | lost
  deriving DecidableEq, Repr

/-- The region route table's port codes (Table 7.1). -/
def codePort : Nat → Option Port
  | 1 => some .north
  | 2 => some .east
  | 3 => some .south
  | 4 => some .west
  | _ => none

/-- route() of R225. -/
def route (s : State) (t : TileAddr) (f : Flit) : Way :=
  if t = f.dst then (if f.rim then .rim else .out .loc)
  else
    let e := (FMap.get 0 (s.region (regionOf t)).routes (regionOf f.dst)).toNat
    if e = 5 then .lost
    else match codePort e with
      | some p => .out p
      | none =>
        if t.col ≠ f.dst.col then .out (if t.col < f.dst.col then .east else .west)
        else .out (if t.row < f.dst.row then .north else .south)

/-- The neighbour at a port; none beyond the wafer edge (R224). -/
def neighbour (t : TileAddr) : Port → Option TileAddr
  | .north => if h : t.row.val + 1 < 324 then some ⟨t.col, ⟨t.row.val + 1, h⟩⟩ else none
  | .south => if t.row.val = 0 then none else some ⟨t.col, ⟨t.row.val - 1, Nat.lt_of_le_of_lt (Nat.sub_le _ _) t.row.isLt⟩⟩
  | .east => if h : t.col.val + 1 < 336 then some ⟨⟨t.col.val + 1, h⟩, t.row⟩ else none
  | .west => if t.col.val = 0 then none else some ⟨⟨t.col.val - 1, Nat.lt_of_le_of_lt (Nat.sub_le _ _) t.col.isLt⟩, t.row⟩
  | .loc => none

/-- The input port of the neighbour that an output feeds. -/
def farPort : Port → Port
  | .north => .south
  | .south => .north
  | .east => .west
  | .west => .east
  | .loc => .loc

/-- The port of an edge tile that faces the rim; at a corner the west or east one (R227; log entry 19). -/
def outwardPort (t : TileAddr) : Port :=
  if t.col.val = 0 then .west else if t.col.val = 335 then .east else if t.row.val = 0 then .south else .north

/-- The output a flit wants. -/
def wants (s : State) (t : TileAddr) (f : Flit) : Option Port :=
  match route s t f with
  | .out p => some p
  | .rim => some (outwardPort t)
  | .lost => none

/-- A credit flit with idx 14 or 15 at the rim gate is handed to the Signal Box (Table 1.2, R270, R403). -/
def handedOver (s : State) (t : TileAddr) (f : Flit) : Bool :=
  f.rim || (t == (s.partOf t).gate && (match f.body with
    | .credit c _ => 14 ≤ c
    | _ => false))

/-- A column line from the rim. -/
def Flit.isLine (f : Flit) : Bool :=
  match f.body with
  | .line _ => true
  | _ => false

/-- The output can take a flit of the channel: the rim always, a tier port its lines always, the local port and a neighbour while their FIFO
has room. A lost region gives no credits back, so flits wait for it (R417). -/
def canTake (s : State) (t : TileAddr) (out : Port) (c : Chan) (f : Flit) : Bool :=
  if t = f.dst then f.rim || handedOver s t f || f.isLine || ((s.tile t).deliverOf c).length < fifoDepth c
  else match neighbour t out with
    | some u => (s.tile u).room (farPort out) c && (s.region (regionOf u)).lostBy == 0
    | none => false

/-- A line from the rim joins the accesses that wait at its tile's tier port (R302, R341). -/
def landLine (s : State) (t : TileAddr) (f : Flit) (a : LowAccess) : State :=
  let s1 := s.mapTile t fun T => { T with low := T.low ++ [a] }
  match (s.tile t).part with
  | some p => s1.setPart p.val { s1.part p.val with lineSent := (s1.part p.val).lineSent.erase f }
  | none => s1

/-- Puts a flit where the output leads. -/
def pass (s : State) (t : TileAddr) (out : Port) (c : Chan) (f : Flit) : State :=
  if t = f.dst then
    if handedOver s t f then
      match (s.tile t).part with
      | some p => s.setPart p.val { s.part p.val with rimIn := (s.part p.val).rimIn ++ [(c, f)] }
      | none => s
    else match f.body with
      | .line a => landLine s t f a
      | _ => s.mapTile t fun T => T.setDeliver c (T.deliverOf c ++ [f])
  else match neighbour t out with
    | some u => s.mapTile u fun U => U.pushFifo (farPort out) c f
    | none => s

/-! ### Arbitration at an output (R219, R220, R229) -/

/-- Later flits of an input and channel pass through the skid while it holds one of them (R219). -/
def Tile.shadowed (T : Tile) (p : Port) (c : Chan) : Bool := T.skid.any fun k => k.inp == p && k.chan == c

/-- Input ports whose FIFO head of channel `c` wants `out`. -/
def heads (s : State) (t : TileAddr) (out : Port) (c : Chan) : List Port :=
  allPorts.filter fun p => match (s.tile t).fifoOf p c with
    | f :: _ => wants s t f == some out
    | [] => false

/-- Of those, the ones that may be granted now. -/
def grantable (s : State) (t : TileAddr) (out : Port) (c : Chan) : List Port :=
  (heads s t out c).filter fun p => !(s.tile t).shadowed p c && (match (s.tile t).fifoOf p c with
    | f :: _ => canTake s t out c f
    | [] => false)

/-- The first port in rotation after the one served last at (out, channel). -/
def rotate (last : Nat) (ps : List Port) : Option Port :=
  ((allPorts.drop last) ++ (allPorts.take last)).find? fun p => ps.contains p

/-- Clk after which a waiting flit of the channel is forced (R229). -/
def forcedAfter : Chan → Nat
  | .sched => 0
  | .mgmt => 32
  | .flow => 256

/-- Grantable inputs that have waited their channel's forced time. -/
def overdueHeads (s : State) (t : TileAddr) (out : Port) (c : Chan) : List Port :=
  (grantable s t out c).filter fun p => forcedAfter c ≤ (s.tile t).ageOf p c

/-- The channel granted from the FIFOs and whether the grant is forced over a higher-ranked channel; a flit that has waited its time
where no higher-ranked flit waits is granted in the ordinary order (R229). -/
def pickChan (s : State) (t : TileAddr) (out : Port) : Option (Chan × List Port × Bool) :=
  let sc := grantable s t out .sched
  let mg := grantable s t out .mgmt
  let fl := grantable s t out .flow
  let fo := overdueHeads s t out .flow
  let mo := overdueHeads s t out .mgmt
  if !fo.isEmpty && (!sc.isEmpty || !mg.isEmpty) then some (.flow, fo, true)
  else if !mo.isEmpty && !sc.isEmpty then some (.mgmt, mo, true)
  else if !sc.isEmpty then some (.sched, sc, false)
  else if !mg.isEmpty then some (.mgmt, mg, false)
  else if !fl.isEmpty then some (.flow, fl, false)
  else none

/-- The first flit of the skid that wants `out` and can advance, none of its input and channel before it, and the others: flits of one
channel that came by different inputs leave in the order in which they entered the skid (DESIGN CHOICE, log entry 99). -/
def pickSkid (s : State) (t : TileAddr) (out : Port) : List SkidFlit → List SkidFlit → Option (SkidFlit × List SkidFlit)
  | _, [] => none
  | seen, k :: ks =>
    if wants s t k.flit == some out && canTake s t out k.chan k.flit &&
       !(seen.any fun j => j.inp == k.inp && j.chan == k.chan) then some (k, seen ++ ks)
    else pickSkid s t out (seen ++ [k]) ks

/-- Removes the head of an input FIFO. -/
def Tile.popFifo (T : Tile) (p : Port) (c : Chan) : Tile :=
  { T.setFifo p c (T.fifoOf p c).tail with ages := FMap.set 0 T.ages (fifoKey p c) 0 }

/-- Flits that wait at an output in one channel: the heads of the FIFOs and those of the skid, the granted one among them. -/
def waiters (s : State) (t : TileAddr) (out : Port) (c : Chan) : Nat :=
  (heads s t out c).length + ((s.tile t).skid.filter fun k => k.chan == c && wants s t k.flit == some out).length

/-- Waiting clk of this output (R243, Table 7.17): a scheduled flit that waits for another one, a flow flit that waits. -/
def countWaits (s : State) (t : TileAddr) (out : Port) (granted : Option Chan) (T : Tile) : Tile :=
  let T1 := if granted = some .sched && 2 ≤ waiters s t out .sched then T.count ctrSchedWait 1 else T
  if (if granted = some .flow then 2 else 1) ≤ waiters s t out .flow then T1.count ctrFlowWait 1 else T1

/-- Grants the FIFO head of input `p` on channel `c`. -/
def grantFifo (s : State) (t : TileAddr) (out : Port) (c : Chan) (p : Port) (forced : Bool) : State :=
  match (s.tile t).fifoOf p c with
  | [] => s
  | f :: _ =>
    let s1 := s.mapTile t fun T =>
      let T1 := T.popFifo p c
      let T2 := { T1 with rot := FMap.set 0 T1.rot (3 * portNo out + chanNo c) (portNo p + 1) }
      if forced then T2.count (if c = .flow then ctrFlowForced else ctrMgmtForced) 1 else T2
    pass s1 t out c f

/-- A flit that waits in its FIFO although the tile is held: a step notice, and a payload of a DESC (R129, R188). -/
def staysInFifo (T : Tile) (c : Chan) (f : Flit) : Bool :=
  match f.body with
  | .step _ _ => true
  | .payload _ => T.descIn.any fun d => d.src == f.src && d.chan == c
  | _ => false

/-- The heads for `out` that go into the skid when they are not granted in this clk: all of them while the tile is held, and those whose
input and channel already pass through the skid (R219). -/
def skidHeads (s : State) (t : TileAddr) (out : Port) : List (Port × Chan) :=
  let T := s.tile t
  (allChans.flatMap fun c => (heads s t out c).map fun p => (p, c)).filter fun pc =>
    T.shadowed pc.1 pc.2 || (held s t && !(out == .loc && (match T.fifoOf pc.1 pc.2 with
      | f :: _ => staysInFifo T pc.2 f
      | [] => false)))

/-- Moves a FIFO head into the skid, keeping its peak (R220). -/
def intoSkid (s : State) (t : TileAddr) (p : Port) (c : Chan) : State :=
  match (s.tile t).fifoOf p c with
  | [] => s
  | f :: _ => s.mapTile t fun T =>
      Tile.peak { T.popFifo p c with skid := T.skid ++ [({ inp := p, chan := c, flit := f } : SkidFlit)] } ctrSkidPeak
        (T.skid.length + 1)

/-- A FIFO head whose table entry is LOST. -/
def lostHead (s : State) (t : TileAddr) : Option (Port × Chan) :=
  (allPorts.flatMap fun p => allChans.map fun c => (p, c)).find? fun pc =>
    match (s.tile t).fifoOf pc.1 pc.2 with
    | f :: _ => route s t f == .lost
    | [] => false

/-- A step notice. -/
def Flit.isStep (f : Flit) : Bool :=
  match f.body with
  | .step _ _ => true
  | _ => false

/-- The first flit that waits in the rim and whose channel has room at the gate, and the others: those of one channel keep their order, and
a step notice goes after the copies sent before it (`copies`: one of their flits still waits; R269). -/
def pickEnter (room : Chan → Bool) (copies : Bool) : List (Chan × Flit) → Option ((Chan × Flit) × List (Chan × Flit))
  | [] => none
  | x :: xs =>
    if room x.1 && !(copies && x.2.isStep) then some (x, xs)
    else (pickEnter room (copies || x.2.src == .signalBox) xs).map fun y => (y.1, x :: y.2)

/-- The line that enters next: the Roundhouse and the page moves take turns, message by message (R341). -/
def nextLine (P : Partition) : Option (Flit × Partition) :=
  match P.pageOut, P.weightOut with
  | [], [] => none
  | f :: fs, [] => some (f, { P with pageOut := fs, lineTurn := true, lineSent := P.lineSent ++ [f] })
  | [], g :: gs => some (g, { P with weightOut := gs, lineTurn := false, lineSent := P.lineSent ++ [g] })
  | f :: fs, g :: gs =>
    if P.lineTurn then some (g, { P with weightOut := gs, lineTurn := false, lineSent := P.lineSent ++ [g] })
    else some (f, { P with pageOut := fs, lineTurn := true, lineSent := P.lineSent ++ [f] })

/-- At a rim gate, the oldest flit that waits in the rim enters the outward input FIFO while its channel has room there, then the lines of
the Roundhouse and of the page moves on the flow channel; in a partition held for recovery they wait (R227, R341, R402, R406). -/
def admitRim (s : State) (t : TileAddr) : State :=
  match (s.tile t).part with
  | none => s
  | some p =>
    let P := s.part p.val
    let enter := fun (P' : Partition) (c : Chan) (f : Flit) =>
      (s.setPart p.val P').mapTile t fun T => T.pushFifo (outwardPort t) c f
    if t != P.gate || P.frozen then s
    else match pickEnter ((s.tile t).room (outwardPort t)) false P.rimOut with
      | some ((c, f), rest) => enter { P with rimOut := rest } c f
      | none =>
        if !(s.tile t).room (outwardPort t) .flow then s
        else match nextLine P with
          | some (f, P') => enter P' .flow f
          | none => s

/-- The first flit of the gate's arrivals that satisfies `c`, and the others. -/
def pickRim (c : Flit → Bool) : List (Chan × Flit) → Option (Flit × List (Chan × Flit))
  | [] => none
  | x :: xs =>
    if c x.2 then some (x.2, xs)
    else match pickRim c xs with
      | some (f, rest) => some (f, x :: rest)
      | none => none

/-! ### Deliveries (R148, R188, R200, R504) -/

/-- What a latched wire does to a tile that naps: a spinning tile finishes; a sleeping or entering one asks for its exit, from
the step its entry has reached (R137, R208, R209). -/
def wakeCheck (s : State) (t : TileAddr) : State :=
  let T := s.tile t
  if T.wakeLatch &&& T.nap.mask = 0 then s
  else match T.nap.rest with
    | .spin => s.setTile t (napFinish (s.partOf t).exact T)
    | .entering | .asleep =>
      let r := regionOf t
      let R := s.region r
      let s1 := s.setRegion r { R with entries := R.entries.filter (· != t)
                                       exits := if T.nap.steps = 0 then R.exits else R.exits ++ [t] }
      if T.nap.steps = 0 then s1.setTile t (napFinish (s.partOf t).exact T)
      else s1.setTile t { T with nap := { T.nap with rest := .leaving } }
    | _ => s

/-- Latches a wire (R135). -/
def latchWire (s : State) (t : TileAddr) (w : Nat) : State :=
  wakeCheck (s.mapTile t fun T => { T with wakeLatch := T.wakeLatch ||| BitVec.ofNat 8 (2 ^ w) }) t

/-- The open window that holds granules g0 … g0 + n − 1 (R148). -/
def Tile.windowFor (T : Tile) (g0 n : Nat) : Option Nat :=
  (List.range 16).find? fun m =>
    (T.window m).opened && decide ((T.window m).range.lo ≤ g0) &&
    decide (g0 + n ≤ (T.window m).range.lo + (T.window m).range.n)

/-- First granule of the rim gate's outbound range (R382). -/
def outboundBase : Nat := 0x3000

/-- A head flit takes effect: a manifest body lands from the first granule of window 15 as it is open (R269); a SEND inside one open window is arriving there, any other is discarded with WIN_FAULT (R148);
at the rim gate a head for the outbound range is collected for the links (R382), and refused while a whole SEND still waits for room in
its port's queue (R383, log entry 22); a DESC head announces its descriptors. -/
def execSendHeadArrival (t : TileAddr) (c : Chan) (s : State) : Out :=
  let T := s.tile t
  match T.deliverOf c with
  | [] => .next s
  | f :: q =>
    let T1 := T.setDeliver c q
    match f.body with
    | .descHead n => .next (s.setTile t { T1 with descIn := T1.descIn ++ [{ src := f.src, chan := c, left := n }] })
    | .sendHead g0 n =>
      if f.src = .signalBox then
        if (T.window 15).opened && decide (n ≤ (T.window 15).range.n) then
          .next (s.setTile t { T1 with
            arriving := T1.arriving ++ [{ src := f.src, chan := c, win := 15, next := (T.window 15).range.lo, left := n }] })
        else .next (tileFault (s.setTile t { T1 with
            arriving := T1.arriving ++ [{ src := f.src, chan := c, win := 15, next := 0, left := n, drop := true }] })
            t codeWin 0 true)
      else if outboundBase ≤ g0 && t == (s.partOf t).gate then
        if T.outbound.any fun o => o.got.length == o.n then .next s
        else .next (s.setTile t { T1 with outbound := T1.outbound ++ [{ src := f.src, chan := c, g0 := g0, n := n }] })
      else match T.windowFor g0 n with
        | some w => .next (s.setTile t { T1 with
            arriving := T1.arriving ++ [{ src := f.src, chan := c, win := w, next := g0, left := n }] })
        | none => .next (tileFault (s.setTile t { T1 with
            arriving := T1.arriving ++ [{ src := f.src, chan := c, win := 0, next := g0, left := n, drop := true }] })
            t codeWin 0 true)
    | _ => .next s

/-- ARRIVE_n plus 32 bytes per granule, saturating at 2^24 − 1 (R134, R200). -/
def addArrive (v : BitVec 24) (granules : Nat) : BitVec 24 := BitVec.ofNat 24 (min (2 ^ 24 - 1) (v.toNat + 32 * granules))

/-- Writes granules from `g`. -/
def Tile.setGranules (T : Tile) (g : Nat) : List Granule → Tile
  | [] => T
  | x :: xs => (T.setGranule g x).setGranules (g + 1) xs

/-- Replaces the arriving record of a source and channel, dropping it when nothing is left. -/
def updateArriving (a' : Arriving) : List Arriving → List Arriving
  | [] => []
  | a :: as =>
    if a.src = a'.src && a.chan = a'.chan then (if a'.left = 0 then as else a' :: as) else a :: updateArriving a' as

/-- A payload flit of an arriving SEND is written and counted (R200, R203); one that fills its window latches wire 6 (R135); one
that passes the expected count raises ARRIVE_OVER once for its SEND (R148). -/
def deliverPayload (s : State) (t : TileAddr) (c : Chan) (q : List Flit) (a : Arriving) (gs : List Granule) : State :=
  let T := (s.tile t).setDeliver c q
  let a1 := { a with next := a.next + gs.length, left := a.left - gs.length }
  if a.drop then s.setTile t { T with arriving := updateArriving a1 T.arriving }
  else
    let old := T.arrived a.win
    let new := addArrive old gs.length
    let w := T.window a.win
    let beyond := decide (w.expected < new.toNat)
    let T1 := (T.setGranules a.next gs).setArrive a.win new
    let T2 := { T1 with arriving := updateArriving { a1 with beyond := a.beyond || beyond } T1.arriving }
    let s1 := if beyond && !a.beyond then (s.setTile t (T2.count ctrArriveOver 1)).raiseTile t 4 else s.setTile t T2
    if w.opened && old.toNat < w.expected && w.expected ≤ new.toNat then latchWire s1 t 6 else s1

/-- A payload flit for the outbound range is collected (R382). -/
def collectOutbound (src : Source) (c : Chan) (gs : List Granule) : List Outbound → List Outbound
  | [] => []
  | o :: os =>
    if o.src = src && o.chan = c && o.got.length < o.n then { o with got := o.got ++ gs } :: os
    else o :: collectOutbound src c gs os

/-- The payload flit in front of a delivery FIFO takes effect. -/
def execPayloadDelivery (v : Visit) (c : Chan) (s : State) : Out :=
  let T := s.tile v.tile
  match T.deliverOf c with
  | [] => .next s
  | f :: q =>
    match f.body with
    | .payload gs =>
      match T.arriving.find? (fun a => a.src == f.src && a.chan == c) with
      | some a => .next (deliverPayload (s.noted v.tile v.note) v.tile c q a gs)
      | none =>
        if T.outbound.any (fun o => o.src == f.src && o.chan == c && decide (o.got.length < o.n)) then
          .next (s.setTile v.tile { T.setDeliver c q with outbound := collectOutbound f.src c gs T.outbound })
        else .next s
    | _ => .next s

/-- Credits are added up to 255; the excess is lost and counted (R151). -/
def addCredits (s : State) (t : TileAddr) (c amount : Nat) : State :=
  let T := s.tile t
  let n := (FMap.get (0 : Byte) T.credit c).toNat + amount
  let T1 := { T with credit := FMap.set 0 T.credit c (BitVec.ofNat 8 (min n 255)) }
  if 255 < n then (s.setTile t (T1.count ctrCredSat (n - 255))).raiseTile t 5 else s.setTile t T1

def execCreditDelivery (t : TileAddr) (s : State) : Out :=
  let T := s.tile t
  match T.deliverOf .mgmt with
  | [] => .next s
  | f :: q =>
    match f.body with
    | .credit c n => .next (addCredits (s.setTile t (T.setDeliver .mgmt q)) t c n)
    | _ => .next s

def execWakeDelivery (t : TileAddr) (s : State) : Out :=
  let T := s.tile t
  match T.deliverOf .mgmt with
  | [] => .next s
  | f :: q =>
    match f.body with
    | .wake w => .next (latchWire (s.setTile t (T.setDeliver .mgmt q)) t w)
    | _ => .next s

/-- A step notice enters the mailbox while it holds fewer than two, and latches wire 7 (R129). -/
def execStepNoticeDelivery (t : TileAddr) (s : State) : Out :=
  let T := s.tile t
  match T.deliverOf .mgmt with
  | [] => .next s
  | f :: q =>
    match f.body with
    | .step g0 g1 =>
      if T.mailbox.length < 2 then
        .next (latchWire (s.setTile t { T.setDeliver .mgmt q with mailbox := T.mailbox ++ [(g0, g1)] }) t 7)
      else .next s
    | _ => .next s

/-- Counts descriptors off the DESC they belong to. -/
def updateDesc (src : Source) (c : Chan) (n : Nat) : List DescArriving → List DescArriving
  | [] => []
  | d :: ds =>
    if d.src = src && d.chan = c then (if d.left ≤ n then ds else { d with left := d.left - n } :: ds)
    else d :: updateDesc src c n ds

/-- The payload in front belongs to a DESC. -/
def Tile.descPayload (T : Tile) (c : Chan) : Option (Flit × List Flit × List Granule) :=
  match T.deliverOf c with
  | [] => none
  | f :: q =>
    match f.body with
    | .payload gs => if T.descIn.any (fun d => d.src == f.src && d.chan == c) then some (f, q, gs) else none
    | _ => none

/-- Descriptors enter the queue in granule order once all of the flit's have room (R188). -/
def execDescriptorDelivery (t : TileAddr) (c : Chan) (s : State) : Out :=
  let T := s.tile t
  match T.descPayload c with
  | none => .next s
  | some (f, q, gs) =>
    if T.descQ.length + gs.length ≤ 32 then
      .next (s.setTile t { T.setDeliver c q with
        descQ := T.descQ ++ gs, descIn := updateDesc f.src c gs.length T.descIn })
    else .next s

/-! ### Sequencer accesses (R118, R129, R133, R189) -/

/-- One pending write of a scalar is done. -/
def Tile.unpend (T : Tile) (n : Nat) : Tile := { T with pend := T.pend.erase n }

/-- The oldest bank access of the sequencer completes. -/
def seqAccessDone (T : Tile) : Tile :=
  match T.seqAcc with
  | [] => T
  | a :: rest =>
    let T := { T with seqAcc := rest }
    match a with
    | .loadWord sd addr => (T.setSreg sd (wordLE (T.pad.read addr 4))).unpend sd
    | .storeWord _ addr v => { T with pad := T.pad.write addr (bytesLE 4 v.toNat) }
    | .stepWait id base g0 g1 => ((T.setGranule base g0).setGranule (base + 1) g1).release id
    | .take id base sd g => ((((T.setGranule base g).setSreg sd (g.extractLsb' 0 32))).unpend sd).release id

def execSequencerAccessDone (v : Visit) (s : State) : Out :=
  if (s.tile v.tile).seqAcc.isEmpty then .next s
  else .next ((s.noted v.tile v.note).mapTile v.tile seqAccessDone)

end Sys2Proof.Machine
end

