-- ==== Sys2Proof/Config.lean ====
section
/-! DEFINITION. What one module fixes and the spec leaves open: constants with no body, so that no proof sees a value. -/
namespace Sys2Proof

/-- The serial number (R467). -/
opaque Config.serial : DWord
/-- What a VCORE_TRIM written above 70 becomes: the spec gives the field 0 to 70 and no rule beyond (Table 13.12; log entry 44). -/
opaque Config.trimAbove : BitVec 8 → BitVec 8
/-- Free values, fresh by the counter of the state that they are applied to (log entry 7). -/
opaque Config.freeNat : Nat → Nat
/-- θ_r of a region at bring-up, K/W (R441, Table 14.10). -/
opaque Config.factoryTheta : Nat → Rat
/-- The factory value of VCORE_TRIM of a region (Table 14.10). -/
opaque Config.factoryTrim : Nat → BitVec 8
/-- The factory value of a calibration item, by kind and index (Table 14.10). -/
opaque Config.factoryCal : Nat → Nat → Int
/-- A quotient by zero, of which the spec states no value (log entry 31). -/
opaque Config.overZero : Rat → Rat
/-- The code that a register shows for a measured quantity in the register's unit: the spec states no rounding (log entry 32). -/
opaque Config.shown : Rat → Nat
/-- Class byte of the event record of a shutdown: Table 12.1 has none (R446; log entry 33). -/
opaque Config.shutdownClass : Byte
/-- Number of the first scan since bring-up, low byte (Table 13.15; log entry 34). -/
opaque Config.scanBase : Nat
/-- Code of the link eye term in RIM_WEAR (R448, R458; log entry 35). -/
opaque Config.eyeTerm : BitVec 4
/-- The 7 check bits of a word's SECDED(39,32) code word: the spec gives no parity matrix (R33, R399, Table 11.3; log entry 113). -/
opaque Config.secded : Word → BitVec 7
/-- Which of the neighbours that may drive a region's clock feed does: R416 names the rings and no neighbour. The region, whether feed B, and
how many may (log entry 118). -/
opaque Config.feedPick : Nat → Bool → Nat → Nat
/-- The rim stack that a master is put in, by digest and the number of stacks that are out: the spec places none (R340, R401; log entry 36). -/
opaque Config.masterStack : BitVec 384 → Nat → Nat
/-- The limits at which a calibration item's sum saturates, by kind: the spec gives none (R473, R498; log entry 63). -/
opaque Config.calLow : Nat → Int
opaque Config.calHigh : Nat → Int
/-- The payload of the Roundhouse cell that asks a module of the hall for a shard, by digest: the spec gives none (R341, R378; log entry 123). -/
opaque Config.fetchRequest : BitVec 384 → BitVec 512
/-- SHA-384 of bytes (R248, R469). -/
opaque Config.sha384 : List Byte → BitVec 384
/-- SHA-384 of the enrolment table, given as its entries' indices, key identifiers and usages: the spec gives no byte layout (R469). -/
opaque Config.tableDigest : List (Nat × BitVec 128 × Byte) → BitVec 384
/-- ECDSA on brainpoolP384r1: whether r and s verify for a digest under the key of an identifier (R248; log entry 4). -/
opaque Config.ecdsa : BitVec 128 → Nat → Nat → BitVec 384 → Bool
/-- The device identity key's identifier, and r and s of its signature of a digest (R467, R469). -/
opaque Config.identityKey : BitVec 128
opaque Config.signR : BitVec 384 → BitVec 384
opaque Config.signS : BitVec 384 → BitVec 384
/-- The certificate chain (R467). -/
opaque Config.certificates : List Byte

end Sys2Proof
end

