-- ==== Sys2Proof/Machine/Pages.lean ====
section
/-! DEFINITION. The page store and the page tables (R296–R313, R507). -/
namespace Sys2Proof.Machine

/-! ### What the image says -/

/-- A footprint: layer, control core, Platform buffer tiles (Table 7.9). -/
structure Foot where
  layer   : Nat
  control : Word
  plat    : List Word
  deriving DecidableEq, Repr

def footOf : ServiceRec → Option Foot
  | .footprint l c p _ => some ⟨l, c, p⟩
  | _ => none

def Partition.service (P : Partition) : List ServiceRec := (P.image.map (·.service)).getD []
def Partition.feet (P : Partition) : List Foot := P.service.filterMap footOf
def Partition.foot (P : Partition) (l : Nat) : Option Foot := P.feet.find? fun f => f.layer == l
def Partition.groups (P : Partition) : Nat := (P.image.map (·.groups)).getD 0

/-- The Page layout record (Table 9.3): slots, k8, base, stride. -/
def Partition.layout (P : Partition) : Nat × Bool × Nat × Nat :=
  (P.service.findSome? fun
    | .pageLayout n k8 b st => some (n, k8 != 0, b, st)
    | _ => none).getD (0, false, 0, 0)

/-- The store tiles of a cache-role image, in list order (R329). -/
def Partition.storeTiles (P : Partition) : List Nat :=
  P.service.flatMap fun
    | .store rs => rs.flatMap fun r =>
        (List.range r.h).flatMap fun j => (List.range r.w).map fun i => (r.col + i) * 512 + (r.row + j)
    | _ => []

/-- What another record leaves of an area. -/
def areaWithout (a o : AreaRec) : List AreaRec :=
  if o.count = 0 || a.first + a.count ≤ o.first || o.first + o.count ≤ a.first then [a]
  else (if a.first < o.first then [{ a with count := o.first - a.first }] else []) ++
    (if o.first + o.count < a.first + a.count then
      [{ a with first := o.first + o.count, count := a.first + a.count - (o.first + o.count) }] else [])

/-- Areas of a tile: its own records, and those for every tile over the lines that no record of its own names (Table 7.8). -/
def areasOf (img : ImageData) (t : Nat) : List AreaRec :=
  let own := img.areas.filter fun a => a.tile.toNat == t
  own ++ (img.areas.filter fun a => a.tile == 0xFFFFFFFF).flatMap fun a => own.foldl (fun l o => l.flatMap fun x => areaWithout x o) [a]

def insertRun (r : Nat × Nat) : List (Nat × Nat) → List (Nat × Nat)
  | [] => [r]
  | q :: qs => if r.1 ≤ q.1 then r :: q :: qs else q :: insertRun r qs

/-- A tile's area of a kind: its runs of lines in ascending order (first, count). -/
def areaRuns (img : ImageData) (t kind : Nat) : List (Nat × Nat) :=
  ((areasOf img t).filter fun a => a.kind == kind && a.count != 0).foldr (fun a l => insertRun (a.first, a.count) l) []

/-- Lines in the runs. -/
def runsSize (rs : List (Nat × Nat)) : Nat := rs.foldl (fun n r => n + r.2) 0

/-- The column line at an offset from the start of the area (Table 10.5). -/
def runsLine : List (Nat × Nat) → Nat → Option Nat
  | [], _ => none
  | r :: rs, o => if o < r.2 then some (r.1 + o) else runsLine rs (o - r.2)

def Partition.runs (P : Partition) (tile kind : Nat) : List (Nat × Nat) :=
  match P.image with
  | some img => areaRuns img tile kind
  | none => []

/-- The first run of a tile's area of a kind: page stores and adapter slots are addressed from its first line (R298, R339). -/
def Partition.area (P : Partition) (tile : Nat) (kind : Nat) : Option (Nat × Nat) := (P.runs tile kind).head?

/-- Frame units of a home (R298). -/
def Partition.units (P : Partition) (home : Nat) : Nat := ((P.area home 5).map fun a => a.2 / 64).getD 0

/-- Lines of a page, and its frame units (Table 9.1). -/
def pageLines (G : Nat) (k8 : Bool) : Nat := if k8 then 16 * G else 8 * G
def pageUnits (G : Nat) (k8 : Bool) : Nat := cdiv (pageLines G k8) 64

/-- A data page id and its fields (Table 9.2). -/
def pageId (home unit : Nat) : Nat := home * 4096 + unit
def pageHome (id : Nat) : Nat := id / 4096
def pageUnit (id : Nat) : Nat := id % 128

def Partition.page (P : Partition) (id : Nat) : Option PageInfo := FMap.get none P.dir id
def Partition.setPage (P : Partition) (id : Nat) (x : Option PageInfo) : Partition :=
  { P with dir := FMap.set none P.dir id x }

/-! ### Pools -/

/-- Rows of a partition: those that name it in ROW_CTRL. -/
def Row.part (x : Row) : Nat := (x.ctrl.extractLsb' 28 4).toNat
def Row.isExport (x : Row) : Bool := x.ctrl.getLsbD 21
def Row.isImport (x : Row) : Bool := x.ctrl.getLsbD 22
def State.rowsOf (s : State) (p : Nat) : List (Nat × Row) := s.rows.filter fun kv => kv.2.part == p

/-- States from acceptance to the end (Table 8.8, checks 10 and 11). -/
def Row.active (x : Row) : Bool := (3 ≤ x.state && x.state ≤ 6) || x.state == 9

/-- Frame units of a home that are allocated, set aside or withheld, as (first, count). -/
def usedUnits (s : State) (p home : Nat) : List (Nat × Nat) :=
  let P := s.part p
  (P.dir.filterMap fun kv => match kv.2 with
    | some x => if pageHome kv.1 == home then some (pageUnit kv.1, pageUnits P.groups x.k8) else none
    | none => none) ++
  ((s.rowsOf p).flatMap fun kv => (kv.2.runs.filter fun r => r.home == home).map fun r => (r.unit, r.units)) ++
  (P.withheld.filter fun w => w.what == 0 && w.home == home).map fun w => (w.first, w.count)

/-- The first run of `n` consecutive free units below `total`. -/
def firstRun (used : List (Nat × Nat)) (total n : Nat) : Option Nat :=
  (List.range (total + 1 - n)).find? fun u =>
    decide (u + n ≤ total) && used.all fun iv => decide (u + n ≤ iv.1) || decide (iv.1 + iv.2 ≤ u)

/-- A list from index i onward, wrapping. -/
def fromIndex (l : List Nat) (i : Nat) : List Nat :=
  if l.isEmpty then [] else l.drop (i % l.length) ++ l.take (i % l.length)

/-- The home and run of a new page: the first tile from the index onward whose pool can hold it beside `extra` (R306, R329).
A tile of a lost region holds none. -/
def placePage (s : State) (p : Nat) (tiles : List Nat) (idx n : Nat) (extra : List Run) : Option (Nat × Nat) :=
  let P := s.part p
  (fromIndex tiles idx).findSome? fun h =>
    let dead := match tileAt h, P.lost with
      | some t, some r => regionOf t == r
      | _, _ => false
    if dead then none
    else
      let used := usedUnits s p h ++ (extra.filter fun r => r.home == h).map fun r => (r.unit, r.units)
      (firstRun used (P.units h) n).map fun u => (h, u)

def Partition.plat (P : Partition) (l : Nat) : List Nat := ((P.foot l).map fun f => f.plat.map (·.toNat)).getD []

/-- Slots of a home that open pages hold or that are withheld. -/
def slotBusy (P : Partition) (home i : Nat) : Bool :=
  (P.dir.any fun kv => match kv.2 with
    | some x => pageHome kv.1 == home && x.slot == some i
    | none => false) ||
  P.withheld.any fun w => w.what == 1 && w.home == home && w.first == i

def freeSlot (P : Partition) (home : Nat) : Option Nat := (List.range P.layout.1).find? fun i => !slotBusy P home i

/-- KVCFG.window as the Signal Box takes it (Table 9.11; log entry 111). -/
def Partition.window (P : Partition) : Nat := max 1 (min 8 P.kvWindow)

/-- Slots that a row reserves per layer (R303). -/
def slotNeed (P : Partition) (chunks : Bool) : Nat := if chunks then 5 * (P.window + 1) else 2

/-- Slots that the open pages of a page set hold in a layer. -/
def PageSet.openSlots (P : Partition) (ps : PageSet) (l : Nat) : Nat :=
  ((FMap.get [] ps.tables l).filter fun t => match P.page t.page with
    | some i => i.slot.isSome
    | none => false).length

/-- Slots of a layer that are set aside for a row or held by its open pages. -/
def Row.slotsIn (P : Partition) (x : Row) (l : Nat) : Nat := max (if x.active then x.slots else 0) (x.pages.openSlots P l)

/-- Slots of a layer that are set aside for the rows of a partition or held by their pages. -/
def slotsAside (s : State) (p l : Nat) : Nat :=
  (s.rowsOf p).foldl (fun (a : Nat) (kv : Nat × Row) => a + kv.2.slotsIn (s.part p) l) 0

/-- Layers that share a home with layer f. -/
def Partition.sharing (P : Partition) (f : Foot) : List Foot := P.feet.filter fun g => g.plat.any f.plat.contains

/-- Every layer's summed slots hold `n` more beside the counts already set aside on homes that the layer shares: those of other
rows, and the row's own in earlier layers (R507; log entry 21). -/
def slotsFit (s : State) (p n : Nat) : Bool :=
  let P := s.part p
  ((List.range P.feet.length).zip P.feet).all fun jf =>
    let own := (P.feet.take (jf.1 + 1)).filter fun g => g.plat.any jf.2.plat.contains
    decide ((P.sharing jf.2).foldl (fun (a : Nat) (g : Foot) => a + slotsAside s p g.layer) 0 + own.length * n ≤
      jf.2.plat.eraseDups.length * P.layout.1)

/-- Table lines in use by rows, handles, or withheld. -/
def usedLines (s : State) (p : Nat) : List (Nat × Nat) :=
  ((s.rowsOf p).map fun kv => (kv.2.pages.base, kv.2.pages.lines)) ++
  ((s.handles.filter fun kv => kv.2.live && kv.2.part == p).map fun kv => (kv.2.pages.base, kv.2.pages.lines)) ++
  ((s.kvp.filterMap fun kv => kv.2.run).filter fun R => R.part == p && !R.away).map (fun R => (R.pages.base, R.pages.lines)) ++
  ((s.part p).withheld.filter fun w => w.what == 2).map fun w => (w.first, w.count)

/-- Lines that every control core can give to tables. -/
def tableRoom (P : Partition) : Nat :=
  P.feet.foldl (fun (m : Nat) f => min m (((P.area f.control.toNat 5).map (·.2)).getD 0)) 8192

def tableRun (s : State) (p n : Nat) : Option Nat :=
  firstRun ((usedLines s p).filter fun iv => iv.2 != 0) (tableRoom (s.part p)) n

/-! ### Table lines (Table 9.4) -/

def Tent.bytes (t : Tent) : List Byte :=
  bytesLE 4 t.page ++
  [BitVec.ofNat 8 ((if t.shared then 1 else 0) + (if t.sealed_ then 2 else 0) + (if t.resume then 4 else 0)),
   BitVec.ofNat 8 t.fill, 0, 0]

/-- Line i of a table: entry 0 is the header. -/
def tableLine (version : Word) (es : List Tent) (i : Nat) : List Byte :=
  let hdr := bytesLE 4 version.toNat ++ bytesLE 2 es.length ++ [0, 0]
  let body := if i = 0 then hdr ++ (es.take 127).flatMap Tent.bytes else ((es.drop (128 * i - 1)).take 128).flatMap Tent.bytes
  body ++ List.replicate (1024 - body.length) 0

/-- One line sets out for the tier port of a tile through the partition's rim gate: at P2 from the Signal Box, at P3 from the Roundhouse
(R227, R302, R341, Table 2.8). -/
def writeLow (s : State) (p tile level line : Nat) (data side : List Byte) (who : Option Nat) : State :=
  match tileAt tile with
  | some t =>
    let a : LowAccess := { level := level, line := line, data := { data := data, side := side }, ack := who }
    s.mapPart p fun P =>
      if level = 3 then { P with weightOut := P.weightOut ++ [{ src := .roundhouse, dst := t, body := .line a }] }
      else { P with pageOut := P.pageOut ++ [{ src := .signalBox, dst := t, body := .line a }] }
  | none => s

/-- The access that a flit carries to line n of a tile. -/
def lineFor (t : TileAddr) (n : Nat) (f : Flit) : Option Line :=
  match f.body with
  | .line a => if f.dst = t && a.line = n then some a.data else none
  | _ => none

/-- A column line as it stands once every write that is on its way to it has landed: the rim reads a line after the lines that it sent
before (R302, R318, R324; log entry 109). -/
def lineNow (s : State) (p : Nat) (t : TileAddr) (n : Nat) : Line :=
  let P := s.part p
  let T := s.tile t
  let sent := (P.lineSent ++ P.pageOut ++ P.weightOut).filterMap (lineFor t n)
  let due := (T.low.filter fun a => a.line == n).map (·.data)
  ((due ++ sent).getLast?).getD (T.line n)

/-- Raises the version and writes, in every layer, the header's line and the lines of the changed entries (R302, R313). -/
def writeTables (s : State) (p who : Nat) (ps : PageSet) (changed : List (Nat × Nat)) : State × PageSet :=
  let P := s.part p
  let v := ps.version + 1
  let jobs := P.feet.flatMap fun f =>
    let ls := 0 :: (changed.filter fun c => c.1 == f.layer).map fun c => (c.2 + 1) / 128
    ls.eraseDups.map fun i => (f, i)
  let s' := jobs.foldl (fun (s : State) (j : Foot × Nat) =>
    match P.area j.1.control.toNat 5 with
    | some a => writeLow s p j.1.control.toNat 2 (a.1 + ps.base + j.2)
        (tableLine v (FMap.get [] ps.tables j.1.layer) j.2) (List.replicate 128 0) (some who)
    | none => s) s
  let n := (jobs.filter fun j => (P.area j.1.control.toNat 5).isSome && (tileAt j.1.control.toNat).isSome).length
  (s', { ps with version := v, acks := ps.acks + n })

/-- Replaces entry k of a layer's table. -/
def PageSet.put (ps : PageSet) (l k : Nat) (t : Tent) : PageSet :=
  let es := FMap.get [] ps.tables l
  { ps with tables := FMap.set [] ps.tables l (es.set k t) }

/-- Appends an entry to a layer's table. -/
def PageSet.append (ps : PageSet) (l : Nat) (t : Tent) : PageSet :=
  { ps with tables := FMap.set [] ps.tables l (FMap.get [] ps.tables l ++ [t]) }

/-- Puts entry k of a layer's table where it may lie beyond the end: "no page" entries stand for the ones between. -/
def PageSet.place (ps : PageSet) (l k : Nat) (t : Tent) : PageSet :=
  let es := FMap.get [] ps.tables l
  let gap := List.replicate (k + 1 - es.length) ({ page := 0xFFFFFFFF } : Tent)
  { ps with tables := FMap.set [] ps.tables l ((es ++ gap).set k t) }

def PageSet.entry (ps : PageSet) (l k : Nat) : Option Tent := (FMap.get [] ps.tables l)[k]?

/-- Every page id that a page set's tables name. -/
def PageSet.ids (ps : PageSet) : List Nat := ps.tables.flatMap fun kv => kv.2.map (·.page)

/-! ### Steps in flight -/

def Manifest.carries (m : Manifest) (r : Nat) : Bool := m.entries.any fun e => e.row == r

/-- Entries of a row in the steps in flight. -/
def Partition.riding (P : Partition) (r : Nat) : List Entry :=
  P.inflight.flatMap fun x => x.man.entries.filter fun e => e.row == r

def Partition.inFlight (P : Partition) (r : Nat) : Bool := P.inflight.any fun x => x.man.carries r

/-- While a partition is held for recovery no step counts as in flight for R313 (R419); ROW_STATUS reads so when halted safe (R412). -/
def Partition.edits (P : Partition) (r : Nat) : Bool := !(P.inFlight r) || P.rstate != 0

/-- The last step closed: what is freed now is withheld until it has left the pipeline (R307). -/
def Partition.fence (P : Partition) : Nat := P.stepNo - 1

/-- A frame or Platform slot that a kill freed reads zero from here on (R471). -/
def wipe (s : State) (p : Nat) (w : Withheld) : State :=
  let P := s.part p
  match tileAt w.home with
  | none => s
  | some t =>
    if !w.wipe || w.what = 2 then s
    else if w.what = 0 then
      match P.area w.home 5 with
      | some a =>
        let first := a.1 + 64 * w.first
        s.mapTile t fun T => { T with column := T.column.clear (1024 * first) (65536 * w.count)
                                      side := T.side.clear (128 * first) (8192 * w.count) }
      | none => s
    else
      let lay := P.layout
      s.mapTile t fun T => { T with pad := T.pad.clear (32 * (lay.2.2.1 + lay.2.2.2 * w.first)) (32 * lay.2.2.2) }

/-- What was withheld returns to the free pools once every step up to its fence has left (R307). -/
def sweep (s : State) (p : Nat) : State :=
  let P := s.part p
  let oldest := match P.inflight with
    | x :: _ => x.man.step
    | [] => P.stepNo
  let gone := P.withheld.filter fun w => decide (w.after < oldest)
  if gone.isEmpty then s
  else gone.foldl (fun s w => wipe s p w) (s.setPart p { P with withheld := P.withheld.filter fun w => decide (oldest ≤ w.after) })

/-! ### Freeing and references (R300, R307) -/

/-- Drops one reference of a page; with none left its frame, and its slot if it has one, are withheld. -/
def dropPage (P : Partition) (id : Nat) : Partition :=
  match P.page id with
  | none => P
  | some x =>
    if x.refs ≤ 1 then
      let frame : Withheld := { what := 0, home := pageHome id, first := pageUnit id, count := pageUnits P.groups x.k8,
                                after := P.fence }
      let slot : List Withheld := match x.slot with
        | some i => [{ what := 1, home := pageHome id, first := i, count := 1, after := P.fence }]
        | none => []
      { P.setPage id none with withheld := P.withheld ++ frame :: slot }
    else P.setPage id (some { x with refs := x.refs - 1 })

/-- A page's slot goes back under R307. -/
def freePageSlot (P : Partition) (id : Nat) : Partition :=
  match P.page id with
  | some x => match x.slot with
    | some i => { P.setPage id (some { x with slot := none }) with
        withheld := P.withheld ++ [{ what := 1, home := pageHome id, first := i, count := 1, after := P.fence }] }
    | none => P
  | none => P

/-- Frees everything a page set holds: references and table lines. -/
def dropSet (P : Partition) (ps : PageSet) : Partition :=
  let P1 := ps.ids.foldl dropPage P
  if ps.lines = 0 then P1
  else { P1 with withheld := P1.withheld ++ [{ what := 2, home := 0, first := ps.base, count := ps.lines, after := P1.fence }] }

/-! ### Replacements (R313) -/

/-- Writes the held replacements of a row once no step that carries it is in flight. -/
def writeHeld (s : State) (r : Nat) : State :=
  let x := s.row r
  let P := s.part x.part
  if x.pages.held.isEmpty || !P.edits r then s
  else
    let ps := x.pages.held.foldl (fun (ps : PageSet) (e : Edit) => ps.put e.layer e.k e.ent) { x.pages with held := [] }
    let out := writeTables s x.part r ps (x.pages.held.map fun e => (e.layer, e.k))
    out.1.mapRow r fun x => { x with pages := out.2 }

/-- Queues a replacement, written at once when nothing in flight carries the row. -/
def replaceEntry (s : State) (r l k : Nat) (t : Tent) : State :=
  writeHeld (s.mapRow r fun x => { x with pages := { x.pages with held := x.pages.held ++ [⟨l, k, t⟩] } }) r

/-- The entry that a layer's table will hold once its held replacements are written. -/
def PageSet.later (ps : PageSet) (l k : Nat) : Option Tent :=
  match (ps.held.filter fun e => e.layer == l && e.k == k).getLast? with
  | some e => some e.ent
  | none => ps.entry l k

/-! ### Allocation (R305, R507) -/

/-- The row's slots of a layer are not all in use. -/
def slotLeft (s : State) (r l : Nat) : Bool :=
  let x := s.row r
  decide (x.pages.openSlots (s.part x.part) l < x.slots)

/-- Allocates page k of a layer from the row's run, with a slot on its home; none while the home has no free slot or the row's slots are
all in use. -/
def allocPage (s : State) (r : Nat) (l k : Nat) : Option State :=
  let x := s.row r
  let P := s.part x.part
  match x.runs.find? fun u => u.layer == l && u.k == k with
  | none => none
  | some u =>
    match if slotLeft s r l then freeSlot P u.home else none with
    | none => none
    | some i =>
      let id := pageId u.home u.unit
      let P1 := P.setPage id (some { layer := l, k8 := P.kvFmt, st := .filling, refs := 1, slot := some i })
      let s1 := s.setPart x.part P1
      some (s1.mapRow r fun x => { x with
        runs := x.runs.filter fun v => !(v.layer == l && v.k == k)
        pages := x.pages.place l k { page := id } })

/-- First page of a row that it fills itself: an import row's prompt pages come by messages (R277). -/
def Row.ownPages (x : Row) : Nat := if x.isImport then cdiv (x.promptLen.toNat - 1) 64 else 0

/-- Allocates the pages of one layer up to page `top`, as far as runs and slots allow. -/
def allocLayer (r l : Nat) : Nat → Nat → State → State × List (Nat × Nat)
  | 0, _, s => (s, [])
  | fuel + 1, top, s =>
    let k := max (FMap.get [] (s.row r).pages.tables l).length (s.row r).ownPages
    if top < k then (s, [])
    else match allocPage s r l k with
      | some s1 =>
        let o := allocLayer r l fuel top s1
        (o.1, (l, k) :: o.2)
      | none => (s, [])

/-- Allocates in every layer the pages up to the one that holds position `pos`, and appends them to the tables; what finds no slot stays
due (R305, R507). -/
def allocTo (s : State) (r pos : Nat) : State :=
  let s := s.mapRow r fun x => { x with due := max x.due (pos + 1) }
  let p := (s.row r).part
  let out := (s.part p).feet.foldl (fun (a : State × List (Nat × Nat)) (f : Foot) =>
    let o := allocLayer r f.layer 4097 (pos / 64) a.1
    (o.1, a.2 ++ o.2)) (s, [])
  if out.2.isEmpty then out.1
  else
    let w := writeTables out.1 p r (out.1.row r).pages out.2
    w.1.mapRow r fun x => { x with pages := w.2 }

/-- The entry stands for a lost page of the row that is being rebuilt (R321). -/
def rebuilding (x : Row) (l : Nat) (t : Tent) : Bool :=
  x.lostPages.any fun lk => lk.1 == l && ((x.pages.later l lk.2).map (·.page)) == some t.page

/-- A page that is to be filled and has no slot yet takes one: a new page of R320 or R321, or a tail page that arrived (R507). A K8/V8
page takes none where slots hold K4/V4 only (R316). A page being rebuilt takes one beyond the row's own count too, or a row whose slots
are all in use could never rebuild it (R322; DEDUCED, log entry 111). -/
def giveSlot (s : State) (r l : Nat) (t : Tent) : State :=
  let p := (s.row r).part
  let P := s.part p
  match P.page t.page with
  | some i =>
    if i.st == .filling && i.slot.isNone && !t.sealed_ && !(i.k8 && !P.layout.2.1) &&
       (slotLeft s r l || rebuilding (s.row r) l t) then
      s.setPart p (P.setPage t.page (some { i with slot := freeSlot P (pageHome t.page) }))
    else s
  | none => s

/-- What a row could not be given before is given where slots have come free (R507; log entry 111). -/
def retryRow (s : State) (r : Nat) : State :=
  let x := s.row r
  if !x.active then s
  else
    let s1 := x.pages.tables.foldl (fun (s : State) (kv : Nat × List Tent) => kv.2.foldl (fun s t => giveSlot s r kv.1 t) s) s
    if x.due = 0 then s1 else allocTo s1 r (x.due - 1)

/-- The pages that a ride reads are there, and those that it appends to have their slots (R308, R321, R507). -/
def pagesOpen (s : State) (r first top : Nat) : Bool :=
  let P := s.part (s.row r).part
  P.feet.all fun f =>
    let es := (FMap.get [] (s.row r).pages.tables f.layer).take (top / 64 + 1)
    ((List.range es.length).zip es).all fun kt => match P.page kt.2.page with
      | some i => i.st != .lost && (kt.1 < first / 64 || kt.2.sealed_ || i.st == .full || i.slot.isSome)
      | none => false

/-- Every layer's table names the pages up to the one that holds `pos`. -/
def pagesTo (s : State) (r pos : Nat) : Bool :=
  (s.part (s.row r).part).feet.all fun f =>
    let es := (FMap.get [] (s.row r).pages.tables f.layer).take (pos / 64 + 1)
    decide (pos / 64 < es.length) && es.all fun t => t.page != 0xFFFFFFFF

/-! ### Reading and copying page lines (R310, R318, R320, R324) -/

/-- Lines of a page as its frame holds them: data and side bytes 0–63. -/
def frameLines (s : State) (p id : Nat) (k8 : Bool) : List PageLine :=
  let P := s.part p
  match tileAt (pageHome id), P.area (pageHome id) 5 with
  | some t, some a => (List.range (pageLines P.groups k8)).map fun i =>
      let ln := lineNow s p t (a.1 + 64 * pageUnit id + i)
      { data := BitVec.ofNat 8192 (natLE ln.data), side := BitVec.ofNat 512 (natLE (ln.side.take 64)) }
  | _, _ => []

/-- Lines of a page as its Platform slot holds them: 34 granules each, 32 of data and 2 of scales (R190, R299). -/
def slotLines (s : State) (p id slot : Nat) (k8 : Bool) : List PageLine :=
  let P := s.part p
  let lay := P.layout
  match tileAt (pageHome id) with
  | some t => (List.range (pageLines P.groups k8)).map fun i =>
      let b := (s.tile t).pad.read (32 * (lay.2.2.1 + lay.2.2.2 * slot + 34 * i)) 1088
      { data := BitVec.ofNat 8192 (natLE (b.take 1024)), side := BitVec.ofNat 512 (natLE (b.drop 1024)) }
  | none => []

/-- A page's lines: from its frame once it is FULL, otherwise from its slot. -/
def pageContents (s : State) (p id : Nat) : List PageLine :=
  match (s.part p).page id with
  | some x => match x.slot with
    | some i => slotLines s p id i x.k8
    | none => frameLines s p id x.k8
  | none => []

/-- The lines of page k of a row in a layer: a resume page's that no entry has opened yet stand in its frame (R310, R320). -/
def rowPage (s : State) (r : Nat) (t : Tent) (k : Nat) : List PageLine :=
  let x := s.row r
  match (s.part x.part).page t.page with
  | some i => if t.resume && decide (x.closedTo ≤ 64 * k + t.fill) then frameLines s x.part t.page i.k8
              else pageContents s x.part t.page
  | none => []

/-- Hands a page's lines to the home's tier port at P2, side bytes 64–127 zero (R296, R324). -/
def writeFrame (s : State) (p id who : Nat) (ls : List PageLine) : State :=
  match (s.part p).area (pageHome id) 5 with
  | some a => ((ls.zip (List.range ls.length)).foldl (fun (s : State) (il : PageLine × Nat) =>
      writeLow s p (pageHome id) 2 (a.1 + 64 * pageUnit id + il.2) (bytesLE 1024 il.1.data.toNat)
        (bytesLE 64 il.1.side.toNat ++ List.replicate 64 0) (some who)) s)
  | none => s

end Sys2Proof.Machine
end

