-- ==== Sys2Proof/Machine/Rows.lean ====
section
/-! DEFINITION. Request rows: reach, host writes to ROW_STATE, release, and the retirement of what rows pin (R259–R262, R288,
R348, R357). -/
namespace Sys2Proof.Machine

/-- Row r lies in VIF_n.ROW_RANGE (Table 8.19). -/
def Vif.holds (v : Vif) (r : Nat) : Bool := decide (v.rowBase ≤ r) && decide (r < v.rowBase + v.rowCount)

/-- A window reaches a row: the physical function's every row, a virtual one those of its range that no lower-numbered virtual
interface's range holds, VIF_0's among them (R260). -/
def reaches (s : State) (w r : Nat) : Bool :=
  decide (r < 8192) &&
  (w == 0 || ((s.vif w).holds r && (List.range w).all fun v => !((s.vif v).holds r)))

/-! ### Pins (R348, R349, R357) -/

/-- Rows pinned to weight generation `no` of a partition. -/
def pinsOf (s : State) (p no : Nat) : Nat :=
  ((s.rowsOf p).filter fun kv => 3 ≤ kv.2.state && !kv.2.unpinned &&
    (kv.2.weightGen == no || (kv.2.oldGen.map (·.1)) == some no)).length

/-- Rows pinned to slot generation `no` of slot j. -/
def slotPins (s : State) (p j no : Nat) : Nat :=
  ((s.rowsOf p).filter fun kv => 3 ≤ kv.2.state && !kv.2.unpinned && !kv.2.adaptNone && kv.2.adaptSlot == j && kv.2.adaptGen == no).length

/-- A step in flight names a weight copy, or a slot copy. -/
def Partition.namesCopy (P : Partition) (copy : Bool) : Bool :=
  P.inflight.any fun x => x.man.entries.any fun e => e.copy == copy
def Partition.namesSlot (P : Partition) (j : Nat) (copy : Bool) : Bool :=
  P.inflight.any fun x => x.man.entries.any fun e => e.slot == some (j, copy)

/-- Retires the weight generation of a copy when it has switched, is no longer current, and nothing pins or names it. -/
def retireCopy (s : State) (p : Nat) (copy : Bool) : State :=
  let P := s.part p
  match P.gen copy with
  | some g =>
    if g.switched && !g.current && pinsOf s p g.no == 0 && !P.namesCopy copy then
      (s.setPart p (P.setGen copy none)).raiseRnd g.window 6 true
    else s
  | none => s

/-- Retires a slot generation in the same way. -/
def retireSlotCopy (s : State) (p j : Nat) (copy : Bool) : State :=
  let P := s.part p
  let x := P.slot j
  match x.gen copy with
  | some g =>
    if (g.switched && !g.current || g.ready && g.dead) && slotPins s p j g.no == 0 && !P.namesSlot j copy then s.setPart p (P.setSlot j (x.setGen copy none))
    else s
  | none => s

/-- A retired slot with no generation left is free and has no owner (R359). -/
def freeSlotOwner (s : State) (p j : Nat) : State :=
  s.mapPart p fun P =>
    let x := P.slot j
    if x.retired && x.copy0.isNone && x.copy1.isNone then P.setSlot j { x with owner := none, retired := false } else P

/-- Everything of a partition that can retire or return to its pool now does. -/
def retireAll (s : State) (p : Nat) : State :=
  let s1 := retireCopy (retireCopy (sweep s p) p false) p true
  ((s1.part p).slots.map (·.1)).foldl
    (fun s j => freeSlotOwner (retireSlotCopy (retireSlotCopy s p j false) p j true) p j) s1

/-! ### Freeing a row -/

/-- Gives up a page set as `dropSet` does; what a kill gives up is zeroised before it returns (R471). -/
def dropSetWith (P : Partition) (ps : PageSet) (kill : Bool) : Partition :=
  let Q := dropSet P ps
  { Q with withheld := P.withheld ++ (Q.withheld.drop P.withheld.length).map fun w => { w with wipe := kill } }

/-- A row enters FREE: gen + 1, pages, runs and token log given back; its registers stay for the next claim (R261, R262). -/
def freeRowWith (s : State) (r : Nat) (kill : Bool) : State :=
  let x := s.row r
  let s1 := s.mapPart x.part fun P => dropSetWith P x.pages kill
  let s2 := s1.setRow r { x with
    state := 0, gen := x.gen + 1, log := [], pages := { acks := x.pages.acks }, runs := [], slots := 0, fetch := .idle, withdraw := false,
    cancel := false, hold := none, stalled := false, flag4 := false, finish := none, releasing := false, since := none,
    rebuild := [], lostPages := [], oldGen := none, unpinned := false, fresh := [], asked := none, prop := none, judge := none, waited := false, notices := 0, want := none, fed := 0, working := none, stale := 0, staleTo := 0,
    exportsLeft := 0, exported := [], due := 0, attached := 0, shipRefused := 0, nextPos := 0 }
  retireAll s2 x.part

def freeRow (s : State) (r : Nat) : State := freeRowWith s r false

/-! ### Host writes to ROW_STATE (Table 8.7) -/

/-- A row write that takes effect only with a reachable row, the current gen and a legal transition (R260, R262); any other is
ignored and raises ROW_WRITE_REJECT in the writer's page (R294). -/
def rowWrite (s : State) (w : WinId) (r : RowId) (gen : BitVec 16) (legal : Nat → Bool) (act : State → State) : State :=
  let x := s.row r.val
  if !pageShown s w.val (pageRow + r.val / 31) then s
  else if reaches s w.val r.val && x.gen == gen && legal x.state then act s else s.raiseSig w.val 1

/-- FREE to FILLING: every RO field is zeroed, ROW_OWNER takes the writer, the RWQ fields stay (R261). -/
def execRowClaim (w : WinId) (r : RowId) (gen : BitVec 16) (s : State) : Out :=
  .next (rowWrite s w r gen (· == 0) fun s => s.mapRow r.val fun x => { x with
    state := 1, owner := w.val, refusal := 0, adaptGen := 0, genLen := 0, lastSeq := 0, pageRoot := 0, weightGen := 0,
    doneCode := 0, recovered := false, overdue := false, missed := false, acceptTime := 0, doneTime := 0 })

/-- FILLING to FREE. -/
def execRowReleaseUnsubmitted (w : WinId) (r : RowId) (gen : BitVec 16) (s : State) : Out :=
  .next (rowWrite s w r gen (· == 1) fun s => freeRow s r.val)

/-- FILLING to SUBMITTED: the prompt copy starts (R263). -/
def execRowCommit (w : WinId) (r : RowId) (gen : BitVec 16) (s : State) : Out :=
  .next (rowWrite s w r gen (· == 1) fun s =>
    { s.mapRow r.val (fun x => { x with state := 2, fetch := .running, log := [], commitNo := s.commits, withdraw := false })
      with commits := s.commits + 1 })

/-- SUBMITTED to FILLING: the copy stops; acted on at the next boundary. -/
def execRowWithdraw (w : WinId) (r : RowId) (gen : BitVec 16) (s : State) : Out :=
  .next (rowWrite s w r gen (· == 2) fun s => s.mapRow r.val fun x => { x with withdraw := true, fetch := .idle })

/-- ACCEPTED, PREFILL, RUNNING or IMPORTED to DRAINING: acted on at step 3 of the next boundary (R284). -/
def execRowCancel (w : WinId) (r : RowId) (gen : BitVec 16) (s : State) : Out :=
  .next (rowWrite s w r gen (fun st => st == 3 || st == 4 || st == 5 || st == 9) fun s =>
    s.mapRow r.val fun x => { x with cancel := true })

/-- DONE or EXPORTED to FREE: at once, or when the last step that carries the row has left the pipeline (R288). -/
def execRowRelease (w : WinId) (r : RowId) (gen : BitVec 16) (s : State) : Out :=
  .next (rowWrite s w r gen (fun st => st == 7 || st == 8) fun s =>
    if (s.part (s.row r.val).part).inFlight r.val then s.mapRow r.val fun x => { x with releasing := true }
    else freeRow s r.val)

/-- The prompt copy of a row completes, or fails (R263, R393); its log holds the prompt, the times zero. -/
def execPromptCopyDone (r : RowId) (ok : Bool) (toks : List Word) (s : State) : Out :=
  let x := s.row r.val
  if x.state == 2 && x.fetch == .running then
    if ok && toks.length == x.promptLen.toNat then
      .next (s.setRow r.val { x with fetch := .done, log := toks.map fun t => (t, 0) })
    else .next (s.setRow r.val { x with fetch := .failed })
  else .next s

/-- Hall time has passed a row's DEADLINE before the row is DONE or EXPORTED (R275). -/
def execDeadlineMiss (r : RowId) (s : State) : Out :=
  let x := s.row r.val
  if x.deadline != 0 && decide (x.deadline.toNat < s.ns) && (x.active || x.state == 2) && !x.missed then
    .next (((s.setRow r.val { x with missed := true }).countPart x.part ctrMiss 1).raiseSig x.owner 3)
  else .next s

/-- A row has been ready for 80 ms without riding a step (R272). -/
def execRowOverdue (r : RowId) (s : State) : Out :=
  let x := s.row r.val
  match x.since with
  | some t0 =>
    if x.active && !x.overdue && decide (t0 + 80000000 ≤ s.ns) then
      .next ((s.setRow r.val { x with overdue := true, overdueAt := t0 + 80000000 }).countPart x.part ctrOverdue 1)
    else .next s
  | none => .next s

end Sys2Proof.Machine
end

