-- ==== Sys2Proof/Machine/Outbox.lean ====
section
/-! DEFINITION. Messages of the Signal Box to other modules: their bytes, their cells, and the queue they join (Tables 8.15,
9.7, 11.3, R325, R383). -/
namespace Sys2Proof.Machine

def padTo (n : Nat) (bs : List Byte) : List Byte := bs ++ List.replicate (n - bs.length) 0

/-- Table 8.15. -/
def SpecMsg.bytes (kind : Nat) (m : SpecMsg) : List Byte :=
  padTo 64 (bytesLE 1 kind ++ bytesLE 1 m.k ++ bytesLE 2 m.mainRow ++ bytesLE 2 m.draftRow ++
    bytesLE 1 (if kind = 1 then m.tokens.length else 0) ++ [0] ++ bytesLE 4 m.b ++ m.tokens.flatMap fun t => bytesLE 4 t.toNat)

/-- Table 9.7 and the page's lines (R325). -/
def ShipMsg.bytes (m : ShipMsg) : List Byte :=
  padTo 128 (bytesLE 1 m.kind ++ bytesLE 1 m.fmt ++ bytesLE 2 m.destRow ++ bytesLE 4 m.k ++ bytesLE 2 m.layer ++
    bytesLE 1 m.fill ++ bytesLE 1 m.destPart ++ bytesLE 2 m.srcRow ++ bytesLE 2 m.srcHall.toNat ++ bytesLE 4 m.reqSeed.toNat ++
    bytesLE 4 m.promptLen ++ bytesLE 48 m.model.toNat ++ bytesLE 48 m.adapter.toNat) ++
  m.lines.flatMap fun l => bytesLE 1024 l.data.toNat ++ bytesLE 64 l.side.toNat

/-- The acknowledgement of R325. -/
def ShipAck.bytes (a : ShipAck) : List Byte :=
  padTo 64 ([6, 0] ++ bytesLE 2 a.row ++ bytesLE 4 a.k ++ bytesLE 1 a.layer ++ bytesLE 1 (a.layer / 256) ++ bytesLE 1 a.status)

/-- The 64-byte payloads of a message. -/
def payloads : Nat → List Byte → List (List Byte)
  | 0, _ => []
  | fuel + 1, bs => if bs.isEmpty then [] else padTo 64 (bs.take 64) :: payloads fuel (bs.drop 64)

/-- The cells of a Signal Box message, the last one flagged (Table 11.3). -/
def messageCells (hall : BitVec 16) (part : Nat) (bs : List Byte) : List Cell :=
  let ps := payloads bs.length bs
  (ps.zip (List.range ps.length)).map fun pi =>
    { destHall := hall, kind := 3, destPart := BitVec.ofNat 4 part, flow := false, last := pi.2 + 1 == ps.length, retx := false,
      target := 0, payload := BitVec.ofNat 512 (natLE pi.1) }

/-! ### Outbound queues (R383, R388) -/

def ctrTxDrop : Nat := 0x074
def LinkPort.count (L : LinkPort) (off n : Nat) : LinkPort :=
  { L with ctr := FMap.set 0 L.ctr off (satAdd32 (FMap.get 0 L.ctr off) n) }

def LinkPort.queue (L : LinkPort) (p : Nat) : List Cell := FMap.get [] L.queues p
def LinkPort.setQueue (L : LinkPort) (p : Nat) (q : List Cell) : LinkPort := { L with queues := FMap.set [] L.queues p q }

def LinkPort.backlogOf (L : LinkPort) (p : Nat) : List Cell := FMap.get [] L.backlog p
def LinkPort.setBacklog (L : LinkPort) (p : Nat) (q : List Cell) : LinkPort := { L with backlog := FMap.set [] L.backlog p q }

/-- Cells that wait in the rim join a partition's outbound queue while it holds fewer than 1,024 (R383). -/
def LinkPort.refill (L : LinkPort) (p : Nat) : LinkPort :=
  let room := 1024 - (L.queue p).length
  (L.setQueue p (L.queue p ++ (L.backlogOf p).take room)).setBacklog p ((L.backlogOf p).drop room)

/-- Cells of a message for a partition's outbound queue of a port, behind those that wait for room in it (R383); a port whose neighbour is in
electrical idle discards them (R388; log entry 22). -/
def enqueue (s : State) (p port : Nat) (cs : List Cell) : State :=
  let L := s.port port
  if L.state = 1 then s.setPort port (L.count ctrTxDrop cs.length)
  else s.setPort port ((L.setBacklog p (L.backlogOf p ++ cs)).refill p)

/-- A port of the partition's slot share for a destination module: that of a route record to it, else of the first slot record
(log entry 22). -/
def sharePort (P : Partition) (hall : BitVec 16) : Nat :=
  match P.image with
  | none => 0
  | some img => ((img.outRoutes.find? fun r => r.destHall == hall).map (·.port)).getD
      ((img.slots.head?.map (·.port)).getD 0)

/-- Sends a Signal Box message of a partition to a partition of another module. -/
def sendMessage (s : State) (p : Nat) (hall : BitVec 16) (part : Nat) (bs : List Byte) : State :=
  enqueue s p (sharePort (s.part p) hall) (messageCells hall part bs)

/-- The Draft link record of a side: hall address, partition, port (Table 7.9). -/
def Partition.draftLink (P : Partition) (side : Nat) : Option (BitVec 16 × Nat × Nat) :=
  P.service.findSome? fun
    | .draftLink sd h q slots => if sd == side then some (h, q, (slots.head?.map (·.1)).getD 0) else none
    | _ => none

/-- Sends a speculative message on the slots of the draft link (R285, R286). -/
def sendSpec (s : State) (p side kind : Nat) (m : SpecMsg) : State :=
  match (s.part p).draftLink side with
  | some (h, q, port) => enqueue s p port (messageCells h q (SpecMsg.bytes kind m))
  | none => s

end Sys2Proof.Machine
end

