-- ==== Sys2Proof/Machine/Masters.lean ====
section
/-! DEFINITION. The masters of shards in the rim stacks, and their refetch from the shards' sources (R340, R343, R353, R401). -/
namespace Sys2Proof.Machine

/-! ### Masters (R340) -/

def State.master (s : State) (d : BitVec 384) : Option Master := s.house.masters.find? fun m => m.digest == d
/-- A verified master of a digest. -/
def State.goodMaster (s : State) (d : BitVec 384) : Bool := s.house.masters.any fun m => m.digest == d && m.good
/-- Rim stacks that have gone out. -/
def State.stacksOut (s : State) : Nat := (s.heat.filter fun kv => 144 ≤ kv.1 && kv.1 < 168 && kv.2.out).length
/-- A master in the stack that it is put in. -/
def State.newMaster (s : State) (d : BitVec 384) (bytes : List Byte) (good : Bool) : Master :=
  { digest := d, bytes := bytes, good := good, home := Config.masterStack d s.stacksOut }
/-- Bytes of a shard as they arrive, not verified yet: the digest of these very bytes is what is compared, and a verified master of the
digest stands. -/
def State.putMaster (s : State) (d : BitVec 384) (bytes : List Byte) : State :=
  if s.goodMaster d then s
  else { s with house := { s.house with masters := (s.house.masters.filter fun m => m.digest != d) ++ [s.newMaster d bytes false] } }
def State.dropMaster (s : State) (d : BitVec 384) : State :=
  { s with house := { s.house with masters := s.house.masters.filter fun m => m.digest != d } }
/-- What a failed fetch wrote of a shard is discarded; a verified master of its digest stands (R343). -/
def State.dropFetched (s : State) (d : BitVec 384) : State := if s.goodMaster d then s else s.dropMaster d
/-- The digest of bytes fetched has matched: they are the verified master. -/
def State.verifyMaster (s : State) (d : BitVec 384) (bytes : List Byte) : State :=
  if s.goodMaster d then s
  else
    let s1 := s.dropMaster d
    { s1 with house := { s1.house with masters := s1.house.masters ++ [s1.newMaster d bytes true] } }
/-- A verified master is there, and hashes to its digest still (R340, R353). -/
def State.masterHolds (s : State) (d : BitVec 384) : Bool :=
  s.house.masters.any fun m => m.digest == d && m.good && Config.sha384 m.bytes == d

/-! ### Sources and refetches -/

/-- The first used source of a shard at or after index i, wrapping (R343). -/
def nextSource (e : ShardEntry) (i : Nat) : Nat :=
  ((List.range 4).map fun k => (i + k) % 4).find? (fun k => ((e.sources.getD k ⟨0, 0⟩).kind != 0)) |>.getD 0

/-- A fetch of a shard from its source k starts: of a module of the hall it is asked for in a Roundhouse message of one cell, on a port of the
partition's slot share for that module (R343, R378; log entry 123). -/
def State.askSource (s : State) (p : Nat) (e : ShardEntry) (k : Nat) : State :=
  let src := e.sources.getD k ⟨0, 0⟩
  if src.kind != 2 then s
  else
    let port := sharePort (s.part p) src.hall
    let L := s.port port
    let c : Cell := { destHall := src.hall, kind := 4, destPart := BitVec.ofNat 4 p, flow := false, last := true, retx := false, target := 0,
                      payload := Config.fetchRequest e.digest }
    s.setPort port { L with mgmtQ := FMap.set [] L.mgmtQ 1 (FMap.get [] L.mgmtQ 1 ++ [[c]]) }

/-- The shard of a digest, as some resident or loading generation names it: partition, slot, copy, index and entry. -/
def shardOf (s : State) (d : BitVec 384) : Option (Nat × Option Nat × Bool × Nat × ShardEntry) :=
  let of := fun (p : Nat) (j : Option Nat) (c : Bool) (m : Option ManifestData) => (m.bind fun m =>
    ((List.range m.shards.length).zip m.shards).find? fun ie => ie.2.digest == d).map fun ie => (p, j, c, ie.1, ie.2)
  (s.parts.flatMap fun kv =>
    ([false, true].filterMap fun c => of kv.1 none c ((kv.2.gen c).map (·.man))) ++
    kv.2.slots.flatMap fun jx => [false, true].filterMap fun c => of kv.1 (some jx.1) c ((jx.2.gen c).map (·.man))).head?

/-- A master that does not hold is discarded and fetched again from the shard's sources, for partition p's recovery where one waits for it
(R343, R353, Table 12.1). -/
def fetchMaster (s : State) (d : BitVec 384) (p : Option Nat) : State :=
  match shardOf s d with
  | none => s.dropMaster d
  | some (q, j, c, i, e) =>
    let owner := p.getD q
    let mine := fun (r : Repair) => r.refetch && r.part == owner && r.digest == d
    let s1 := s.dropMaster d
    if s1.house.repairs.any mine then
      let wait := fun (r : Repair) => if mine r then { r with recovery := r.recovery || p.isSome } else r
      { s1 with house := { s1.house with repairs := s1.house.repairs.map wait } }
    else
      let rep : Repair := { part := owner, slot := j, copy := c, shard := i, digest := d, refetch := true, lines := false, recovery := p.isSome,
                            source := nextSource e 0, start := 0, stop := s.ns }
      { s1 with house := { s1.house with repairs := s1.house.repairs ++ [rep] } }.askSource owner e rep.source

end Sys2Proof.Machine
end

