-- ==== Sys2Proof/Machine/ErrorEvents.lean ====
section
/-! DEFINITION. Error events as the Sufin controller takes them: records, strikes, halts and the loss of a region (ch. 12). -/
namespace Sys2Proof.Machine

/-! ### Classes of Table 12.1 -/

def stepClass (c : Byte) : Bool := 0x10 ≤ c.toNat && c.toNat ≤ 0x17
def haltClass (c : Byte) : Bool := 0x20 ≤ c.toNat && c.toNat ≤ 0x22
def regionClass (c : Byte) : Bool := 0x30 ≤ c.toNat && c.toNat ≤ 0x33

/-! ### RECOVER.state, holds and halts -/

/-- FLT page events of the physical function (Table 12.11). -/
def State.raiseFlt (s : State) (bit : Nat) : State :=
  let s1 := s.raiseIn 0 pageFlt bit
  -- REGION_LOST and HALTED_SAFE pull MOD_ALERT_N low for 1 ms (Table 14.11)
  if bit = 2 || bit = 3 then { s1 with bru := { s1.bru with pulse := s1.ns + 1000000 } } else s1

/-- RECOVER.state changes; RECOVERING and RESUMED follow it (Table 15.10). -/
def setRstate (s : State) (p st : Nat) : State :=
  let old := (s.part p).rstate
  let s1 := s.mapPart p fun P => { P with rstate := st }
  if old = 0 && st != 0 then s1.raisePrt p 9 else if old != 0 && st = 0 then s1.raisePrt p 10 else s1

/-- The fault-capture hold (R402): every tile of the partition freezes, HOLD_STAT.fault is set. -/
def faultHold (s : State) (p st : Nat) : State :=
  setRstate (s.mapPart p fun P => { P with frozen := true, hsFault := true }) p st

/-- A partition halts safe (R412). -/
def haltSafe (s : State) (p cause : Nat) : State :=
  let s1 := faultHold s p 3
  ((s1.mapPart p fun P => { P with cause := cause, recovering := false, divert := none }).countPart p ctrHalt 1).raiseFlt 3

/-- The same of a partition that may have halted safe already: it stays so, with the cause it has (R412). -/
def haltOnce (s : State) (p cause : Nat) : State := if (s.part p).rstate = 3 then s else haltSafe s p cause

/-! ### Records (R408, R496) -/

/-- Oldest unretired step number; zero for none. -/
def Partition.oldest (P : Partition) : Nat := (P.inflight.head?.map fun x => x.man.step).getD 0

/-- The oldest unretired step of the partition that an event names (Table 12.3). -/
def eventStep (s : State) (e : ErrEvent) : Nat :=
  match e.part with
  | some p => (s.part p.val).oldest
  | none => 0

/-- The record of an event detected at `time`, with `step` the oldest unretired step then. -/
def recordAt (e : ErrEvent) (time step : Nat) : FltRec :=
  { time := time, cls := e.cls, part := e.part.map (·.val), region := e.region.map (·.val),
    tile := BitVec.ofNat 32 ((e.tile.map tileKey).getD 0), detail := e.detail, step := step, loc := e.loc }

/-- The record of an event detected now. -/
def recordOf (s : State) (e : ErrEvent) : FltRec := recordAt e s.ns (eventStep s e)

/-- The lowest queue slot that holds no record, and a record that takes it (R496; log entry 61). -/
def freeFltSlot (q : List FltRec) : Nat := ((List.range 16).find? fun i => q.all fun x => x.slot != i).getD 0
def queueRec (s : State) (x : FltRec) : State := { s with fltQ := s.fltQ ++ [{ x with slot := freeFltSlot s.fltQ }] }

/-- SVC_TX tells the phase that a bring-up has reached (Tables 14.1, 14.11; log entry 120). -/
def Bru.logPhase (b : Bru) : Bru := { b with svc := b.svc ++ [.boot b.phase] }
/-- SVC_TX tells a record in a line while the module is in service (Table 14.11; log entry 120). -/
def Bru.tellRecord (b : Bru) (n : Word) : Bru := if b.done then { b with svc := b.svc ++ [.record n] } else b

/-- A record enters history: slot n mod 64 (R496). -/
def toHistory (s : State) (x : FltRec) : State :=
  { s with fltHist := FMap.set none s.fltHist (s.fltDone.toNat % 64) (some x), fltDone := s.fltDone + 1, bru := s.bru.tellRecord s.fltDone }

/-- The strike of a record that leaves the queue is open no longer: the second within a second of this instant counts still (R410). -/
def endStrike (s : State) (x : FltRec) : State :=
  match x.region with
  | some g =>
    if stepClass x.cls && (FMap.get none s.strikes g).isSome then
      { s with strikes := FMap.set none s.strikes g (some (max 1 s.ns, x.step)) }
    else s
  | none => s

/-- Queued records that satisfy `c` leave the queue for history in state `st` with `outcome`. -/
def closeRecords (s : State) (c : FltRec → Bool) (st outcome : Nat) : State :=
  (s.fltQ.filter c).foldl (fun s x => endStrike (toHistory s { x with state := st, outcome := outcome }) x)
    { s with fltQ := s.fltQ.filter fun x => !c x }

/-- When room has returned, the records lost are told in one QUEUE_OVERFLOW record (R411). -/
def tellLost (s : State) : State :=
  if s.untold = 0 || 16 ≤ s.fltQ.length then s
  else
    let x : FltRec := { time := s.ns, cls := 0x61, part := none, region := none, tile := 0, detail := 0, step := 0,
                        loc := BitVec.ofNat 32 s.untold, state := 3, outcome := 4 }
    toHistory { s with untold := 0 } x

/-- A partition that halted for a full queue restarts by itself once the queue is empty (Table 12.5). -/
def autoRestart (s : State) : State :=
  if s.fltQ.isEmpty then
    (List.range 16).foldl (fun (s : State) (p : Nat) =>
      if (s.part p).rstate = 3 && (s.part p).cause = 1 then
        setRstate (s.mapPart p fun P => { P with cause := 0, recovering := true }) p 1
      else s) s
  else s

/-- Records have left the queue: those lost are told, and partitions that waited for an empty queue restart (R411, R412). -/
def settle (s : State) : State := autoRestart (tellLost s)

/-- Records of a partition that has halted safe are closed so; their repairs stay due (R413, R424). -/
def closeHalted (s : State) (p : Nat) : State :=
  if (s.part p).rstate = 3 then
    let mine := s.fltQ.filter fun x => x.part == some p && stepClass x.cls
    (closeRecords s (fun x => x.part == some p) 5 3).mapPart p fun P => { P with owed := P.owed ++ mine }
  else s

/-! ### Regions (R410, R414) -/

/-- The partition whose rectangle holds a region. -/
def partOfRegion (s : State) (r : Nat) : Option Nat :=
  (s.parts.find? fun kv => (kv.2.image.isSome || kv.2.quarantine) && kv.2.regions.contains r).map (·.1)

/-- Adds an entry to the field fault map; a full map raises FIELD_MAP_FULL (R463). -/
def addFault (s : State) (kind cause a b : Nat) : State :=
  if 8192 ≤ s.bru.field.length then s.raise pageBru 2
  else { s with bru := { s.bru with field := s.bru.field ++
          [{ kind := kind, cause := cause, a := a, b := b, time := if s.hall.state = 2 then s.ns else 0 }] } }

/-- Column lines for a lost region are written nowhere: whoever waits for them waits no longer (R402, R419; log entry 109). -/
def dropLines (s : State) (r : Nat) : State :=
  let here := fun (f : Flit) => regionOf f.dst == r
  let ackOf := fun (f : Flit) => match f.body with
    | .line a => a.ack
    | _ => none
  let inRegion := fun (k : Nat) => match tileAt k with
    | some t => regionOf t == r
    | none => false
  let lows := s.tiles.flatMap fun kv => if inRegion kv.1 then kv.2.low.filterMap fun a => a.ack.map fun w => (kv.2.part, w) else []
  let queued := s.parts.flatMap fun kv => ((kv.2.pageOut ++ kv.2.weightOut).filter here).filterMap fun f =>
    (ackOf f).map fun w => ((if h : kv.1 < 16 then some ⟨kv.1, h⟩ else none : Option PartId), w)
  let s1 := (s.parts.map (·.1)).foldl (fun (s : State) p => s.mapPart p fun P => { P with
    pageOut := P.pageOut.filter fun f => !here f, weightOut := P.weightOut.filter fun f => !here f }) s
  let s2 := (s1.tiles.map (·.1)).foldl (fun (s : State) k => match tileAt k with
    | some t => if inRegion k then s.mapTile t fun T => { T with low := [] } else s
    | none => s) s1
  (lows ++ queued).foldl (fun s pw => ackLine s pw.1 pw.2) s2

/-- Whatever a region's tiles held is gone: its supply is off (Table 12.6, R472). -/
def eraseRegion (s : State) (r : Nat) : State :=
  { s with tiles := s.tiles.filterMap fun kv => match tileAt kv.1 with
      | some t => if regionOf t = r then
          (let T : Tile := { Tile.reset with part := kv.2.part, deferMax := kv.2.deferMax }
           if T = Tile.reset then none else some (kv.1, T)) else some kv
      | none => some kv }

/-- Physical row of a logical tile (R16, R17). -/
def physRow (s : State) (t : TileAddr) : Nat := 28 * (t.row.val / 27) + localRow (s.region (regionOf t)) t

/-- The tiles of a region's strikes are marked in the field fault map (Table 12.6). -/
def markStruck (s : State) (r : Nat) : State :=
  let s1 := (FMap.get [] s.struck r).eraseDups.foldl (fun (s : State) k => match tileAt k with
    | some t => addFault s 1 7 t.col.val (physRow s t)
    | none => s) s
  { s1 with struck := FMap.set [] s1.struck r [] }

/-! ### Clock feeds (R416) -/

/-- The ring of a region (R15), and its neighbours. -/
def ringOf (r : Nat) : Nat := min (min (r / 12) (11 - r / 12)) (min (r % 12) (11 - r % 12))
def adjacentRegions (r : Nat) : List Nat :=
  (if r / 12 = 0 then [] else [r - 12]) ++ (if r / 12 = 11 then [] else [r + 12]) ++
  (if r % 12 = 0 then [] else [r - 1]) ++ (if r % 12 = 11 then [] else [r + 1])

/-- The region that drives a feed of a region; none for a rim region, whose feeds come from the rim clock tree. -/
def feedFrom (r : Nat) (b : Bool) : Option Nat :=
  let k := ringOf r
  let pick := fun (b : Bool) (xs : List Nat) => xs[Config.feedPick r b xs.length % max 1 xs.length]?
  let inner := (adjacentRegions r).filter fun q => ringOf q + 1 == k
  if k = 0 then none
  else if !b then pick false inner
  else
    let same := (adjacentRegions r).filter fun q => ringOf q == k
    if same.isEmpty then pick true (inner.filter fun q => pick false inner != some q) else pick true same

/-- The feeds that a region drives. -/
def feedsOf (r : Nat) : List (Nat × Bool) :=
  (adjacentRegions r).flatMap fun q => [false, true].filterMap fun b => if feedFrom q b = some r then some (q, b) else none

/-- A feed of a region stops: where it was the live one the region switches to the other, and counts it. -/
def stopFeed (s : State) (r : Nat) (b : Bool) : State :=
  let R := s.region r
  let R1 := if b then { R with deadB := true } else { R with deadA := true }
  if R.onB != b then s.setRegion r R1
  else if if b then R.deadA else R.deadB then s.setRegion r R1
  else (s.setRegion r { R1 with onB := !b, feedSwitch := satAdd32 R.feedSwitch 1 }).raiseFlt 6

/-- Both feeds of a region have stopped. -/
def Region.noClock (R : Region) : Bool := R.deadA && R.deadB

/-- The tiles of a region whose clocks have stopped: their columns keep their contents in self-refresh, and their logic is never used again
for service (Table 12.6). -/
def stopTiles (s : State) (r : Nat) : State :=
  { s with tiles := s.tiles.filterMap fun kv => match tileAt kv.1 with
      | some t => if regionOf t = r then
          (let T : Tile := { Tile.reset with part := kv.2.part, deferMax := kv.2.deferMax, column := kv.2.column, side := kv.2.side }
           if T = Tile.reset then none else some (kv.1, T)) else some kv
      | none => some kv }

/-- A region is lost: out of service, marked; after a fuse trip its contents are gone. One that is lost already stays as its first loss left
it, but for a fuse that opens then (R414, R415, Table 12.6, Table 14.3). In a partition in quarantine its domain is switched off at once
(Table 14.9). -/
def dropRegion (s : State) (r cls detail : Nat) : State :=
  let R := s.region r
  let cause := if cls = 0x30 then 8 else if cls = 0x31 then (if detail = 1 then 10 else 9) else 2
  if R.lostBy != 0 && (cls != 0x30 || R.lostBy == 0x30) then s
  else
    let s1 := (dropLines s r).setRegion r { R with inService := false, lostBy := cls }
    let s2 := if cls = 0x32 then markStruck s1 r else addFault s1 2 cause r 0
    let off := cls == 0x30 || (match partOfRegion s r with
      | some p => (s.part p).quarantine
      | none => false)
    if off then eraseRegion s2 r else stopTiles s2 r

/-- The loss of a region stops the feeds that it drives; a region whose two feeds have stopped is lost with class 0x33 (R416). The first
argument bounds how far this goes: the regions. -/
def loseRegion : Nat → State → Nat → Nat → Nat → State
  | 0, s, _, _, _ => s
  | n + 1, s, r, cls, detail =>
    let s1 := dropRegion s r cls detail
    if (s.region r).lostBy != 0 then s1
    else (feedsOf r).foldl (fun (s : State) (qb : Nat × Bool) =>
      let s2 := stopFeed s qb.1 qb.2
      if (s2.region qb.1).noClock && (s2.region qb.1).lostBy == 0 then loseRegion n s2 qb.1 0x33 0 else s2) s1

/-! ### ERROR_EVENT (R400–R402, R409–R411) -/

/-- A second strike: the first is still open, ended within 1 s, or struck the same step's replay. -/
def secondStrike (s : State) (r step : Nat) : Bool :=
  match FMap.get none s.strikes r with
  | none => false
  | some (stop, st) => stop == 0 || decide (s.ns ≤ stop + 1000000000) || (step != 0 && step == st)

/-- The last completed record of a region's strike is marked escalated (R410). -/
def escalateLast (s : State) (r : Nat) : State :=
  let n := s.fltDone.toNat
  let slot := ((List.range (min 64 n)).map fun i => (n - 1 - i) % 64).find? fun i => match FMap.get none s.fltHist i with
    | some x => stepClass x.cls && x.region == some r
    | none => false
  match slot with
  | some i => { s with fltHist := FMap.set none s.fltHist i ((FMap.get none s.fltHist i).map fun x => { x with state := 4 }) }
  | none => s

/-- The region is isolated: a REGION_STRIKE record, the earlier records escalated, the running recovery becomes its loss (R410). -/
def isolate (s : State) (p : Option Nat) (r : Nat) : State :=
  let x : FltRec := { time := s.ns, cls := 0x32, part := p, region := some r, tile := 0, detail := 0,
                      step := match p with
                        | some p => (s.part p).oldest
                        | none => 0
                      loc := 0 }
  let first := match FMap.get none s.strikes r with
    | some (stop, _) => stop == 0
    | none => true
  let s1 := closeRecords (if first then s else escalateLast s r) (fun y => stepClass y.cls && y.region == some r) 4 2
  let s2 := (loseRegion 144 { s1 with strikes := FMap.set none s1.strikes r none } r 0x32 0).raiseFlt 2
  match p with
  | none => (queueRec s2 x).raiseFlt 0
  | some p =>
    if (s2.part p).recovering then
      setRstate (((queueRec s2 { x with state := 1, outcome := 2 }).raiseFlt 0).mapPart p fun P => { P with divert := some r }) p 2
    else (queueRec s2 x).raiseFlt 0

/-- The fault report of a tile leaves the gate's arrivals when its event reaches the controller. -/
def dropReport (s : State) (e : ErrEvent) : State :=
  match e.part, e.tile with
  | some p, some t => s.mapPart p.val fun P =>
      match pickRim (fun f => f.isFault && f.src == .tile t) P.rimIn with
      | some (_, rest) => { P with rimIn := rest }
      | none => P
  | _, _ => s

/-- An event of a unit, detected at `time` with `step` the oldest unretired step, as the controller takes it. -/
def takeAt (s : State) (e : ErrEvent) (time step : Nat) : State :=
  let s0 := dropReport s e
  let x := recordAt e time step
  -- records of classes 0x40 to 0x61 are handled as they arrive (R409)
  if !(stepClass e.cls || haltClass e.cls || regionClass e.cls) then toHistory s0 { x with state := 3, outcome := 4 }
  else
    let s1 := match e.part with
      | some p =>
        let P := s0.part p.val
        if P.rstate = 0 && P.loaded then
          (faultHold s0 p.val (if regionClass e.cls then 2 else 1)).mapPart p.val fun P => { P with detected := time }
        else s0
      | none => s0
    let s2 := if regionClass e.cls && e.region.isSome then s1.raiseFlt 2 else s1
    if 16 ≤ s2.fltQ.length then
      let s3 := { s2 with fltLost := satAdd32 s2.fltLost 1, untold := s2.untold + 1 }
      match e.part with
      | some p => (if (s3.part p.val).loaded then haltOnce s3 p.val 1 else s3).raiseFlt 4
      | none => s3
    else
      let s3 := (queueRec s2 x).raiseFlt 0
      match e.region with
      | none => s3
      | some r =>
        if stepClass e.cls then
          let again := secondStrike s2 r.val step
          let old := if again then FMap.get [] s3.struck r.val else []
          let s4 := { s3 with struck := FMap.set [] s3.struck r.val (old ++ (e.tile.map tileKey).toList) }
          if again then isolate s4 (e.part.map (·.val)) r.val
          else { s4 with strikes := FMap.set none s4.strikes r.val (some (0, step)) }
        else match e.part with
          | some p =>
            if regionClass e.cls && (s3.part p.val).recovering then
              -- a region lost during a replay turns the recovery into a diversion (Table 12.4)
              setRstate (s3.mapPart p.val fun P => { P with divert := some (P.divert.getD r.val) }) p.val 2
            else s3
          | none => s3

/-- An event detected now. -/
def takeEvent (s : State) (e : ErrEvent) : State := takeAt s e s.ns (eventStep s e)

/-- Which unit an event is of: it keeps one for a controller in reset (R422). -/
def sameUnit (a b : ErrEvent) : Bool :=
  match a.tile, b.tile with
  | some t, some u => t == u
  | none, none => a.cls == b.cls && a.part == b.part && a.region == b.region
  | _, _ => false

/-- The access that met the uncorrectable word is given up: nothing of it is delivered, and its scoreboard entry stays (R44, R400; log
entry 83). -/
def Tile.dropFound (T : Tile) : FoundBy → Tile
  | .none => T
  | .lineWrite => { T with writeQ := T.writeQ.tail, writing := T.writing.filter (· != .queue) }
  | .rowEngine =>
    match T.rowQ with
    | o :: q => { T with rowQ := q, readQ := T.readQ.filter (·.id != o.id), lineBuf := T.lineBuf.filter (·.id != o.id) }
    | [] => T
  | .vectorUnit => { T with vecQ := T.vecQ.tail }
  | .sequencer => { T with seqAcc := T.seqAcc.tail }
  | .sendQueue => { T with sendQ := T.sendQ.tail }
  | .mgmtQueue => { T with mgmtQ := T.mgmtQ.tail }
  | .descriptors => { T with descQ := T.descQ.tail }
  | .mailbox => { T with mailbox := T.mailbox.tail }
  | .fifo p c => T.popFifo p c
  | .skid => { T with skid := T.skid.tail }
  | .deliver c => T.setDeliver c (T.deliverOf c).tail
  | .master _ => T

/-- The tile that found an uncorrectable word halts with FAULT_INFO code 0x7 (R44, R46, R122, R400); the event is its report
(DEDUCED, log entry 84: classes 0x10 to 0x17 are those of a tile's own words). -/
def haltFinder (s : State) (e : ErrEvent) : State :=
  match e.tile with
  | some t =>
    if stepClass e.cls then
      s.mapTile t fun T => { T.dropFound e.found with
        halted := true, wait := .none
        faultInfo := if T.faultInfo = 0 then faultWord codeUncorrectable 0 true T.pc else T.faultInfo }
    else s
  | none => s

/-- The controller takes an event; in reset, its unit keeps one until it returns (R422). -/
def tellSufin (s : State) (e : ErrEvent) : State :=
  if s.sufinDown then
    if s.heldEvents.any fun h => sameUnit e h.ev then s
    else { s with heldEvents := s.heldEvents ++ [⟨e, s.ns, eventStep s e⟩] }
  else takeEvent s e

/-- A region's event, naming the partition that holds it. -/
def lossEvent (s : State) (r : RegionId) (cls detail : Byte) : ErrEvent :=
  let part : Option PartId := (partOfRegion s r.val).bind fun p => if h : p < 16 then some ⟨p, h⟩ else none
  { cls := cls, part := part, region := some r, tile := none, detail := detail, loc := 0 }

/-- Regions that have stopped for want of a clock since `before` are told as such (R416). -/
def tellClocks (before s : State) : State :=
  (List.finRange 144).foldl (fun (s : State) (q : RegionId) =>
    if (s.region q.val).lostBy == 0x33 && (before.region q.val).lostBy != 0x33 then tellSufin s (lossEvent s q 0x33 0) else s) s

/-- What an event is of happens at once, whether or not the controller runs: the finder halts, a region is lost, a master's word is given up
and the master fetched again (R400, R401, R414, R415). -/
def errorEvent (s : State) (e : ErrEvent) : State :=
  let s1 := haltFinder s e
  let s2 := match e.found with
    | .master d => if e.cls = 0x40 then fetchMaster s1 d none else s1
    | _ => s1
  match e.region with
  | some r =>
    if regionClass e.cls then
      let s3 := loseRegion 144 s2 r.val e.cls.toNat e.detail.toNat
      tellClocks (s2.setRegion r.val (s3.region r.val)) (tellSufin s3 e)
    else tellClocks s2 (tellSufin s2 e)
  | none => tellSufin s2 e

def execErrorEvent (e : ErrEvent) (s : State) : Out := .next (errorEvent s e)

end Sys2Proof.Machine
end

