-- ==== Sys2Proof/Machine/Stream.lean ====
section
/-! DEFINITION. Token delivery: stream rings, records, completion, token notices and their judgement (R278–R289). -/
namespace Sys2Proof.Machine

/-! ### Rings (R279, R280) -/

/-- log2size and batch as the ring uses them. -/
def Ring.size (g : Ring) : Nat := max 6 (min 20 g.log2size)

/-- A ring has room: a disabled one never has. -/
def Ring.room (g : Ring) : Bool := g.enable && decide ((g.produced - g.consumed).toNat < 2 ^ g.size)

/-- Records of a function go out while its link is up and it masters the bus in D0 (R393, Table 11.9). -/
def hostReady (s : State) (w : Nat) : Bool := s.host.up && (s.vif w).busMaster && !(s.vif w).d3hot

/-- One 16-byte record at its slot, its phase bit in bit 15 of bytes 2–3 (R279, Table 8.11). -/
def recordBytes (g : Ring) (p : Nat) (words : List Word) : List Byte :=
  let w0 := words.getD 0 0
  let phase : Word := if (p / 2 ^ g.size) % 2 = 0 then 0x80000000 else 0
  bytesLE 4 (w0 ||| phase).toNat ++ (words.drop 1).flatMap fun w => bytesLE 4 w.toNat

def HostPort.post (h : HostPort) (a : Nat) (bs : List Byte) : HostPort := { h with posted := h.posted ++ [(a, bs)] }

/-- Sends the ring's interrupt. -/
def ringInterrupt (s : State) (w k : Nat) : State :=
  let g := s.ring w k
  { s.setRing w k { g with quiet := 0 } with host := s.host.msi w g.vector }

/-- Writes one record into ring k of window w: its slot, PRODUCED, the interface's RECORDS, and the interrupt when the batch is
full (R279, Table 8.13). -/
def writeRecord (s : State) (w k row seq : Nat) (words : List Word) : State :=
  let g := s.ring w k
  let p := g.produced.toNat
  let a := g.base.toNat + 16 * (p % 2 ^ g.size)
  let bs := recordBytes g p words
  let g1 := { g with
    produced := g.produced + 1
    quiet := g.quiet + 1
    quietAt := if g.quiet = 0 then s.ns else g.quietAt
    recs := (g.recs ++ [({ row := row, seq := seq, data := words } : Rec)]).drop (g.recs.length + 1 - 2 ^ g.size) }
  let v := s.vif w
  let s1 := { (s.setRing w k g1).setVif w { v with records := satAdd64 v.records 1 } with host := s.host.post a bs }
  if g.batch != 0 && decide (g.batch ≤ g1.quiet) then ringInterrupt s1 w k else s1

/-- The record words of a row: row id and flags, sequence number, token, time. -/
def recordWords (r flags seq : Nat) (tok : Word) (ns : Nat) : List Word :=
  [BitVec.ofNat 32 (r + flags * 65536), BitVec.ofNat 32 seq, tok, BitVec.ofNat 32 ns]

/-- The row's ring takes a record now. -/
def Row.ringNo (x : Row) : Nat := (x.ctrl.extractLsb' 0 5).toNat
def rowRoom (s : State) (x : Row) : Bool := (s.ring x.owner x.ringNo).room && hostReady s x.owner
def Row.draft (x : Row) : Bool := x.ctrl.getLsbD 20
def Row.specOn (x : Row) : Bool := x.ctrl.getLsbD 24

/-- STREAM_HOLDOFF_EXPIRE: a record has waited holdoff µs (R279, Table 8.13). -/
def execStreamHoldoffExpire (w : WinId) (k : Fin 32) (s : State) : Out :=
  let g := s.ring w.val k.val
  if g.quiet != 0 && g.batch != 0 && g.holdoff != 0 && decide (g.quietAt + 1000 * g.holdoff ≤ s.ns) then
    .next (ringInterrupt s w.val k.val)
  else .next s

/-- STREAM_ENABLE: an enable of a ring in use zeroes PRODUCED and CONSUMED; the RWQ fields of the same write are judged with
the ring as it stands before it (Table 8.13, R488). -/
def setStreamCfg (s : State) (w k : Nat) (v : Word) : State × Bool :=
  let g := s.ring w k
  let same := (v.extractLsb' 26 5).toNat == g.log2size && (v.extractLsb' 20 6).toNat == g.vector &&
    (v.extractLsb' 12 8).toNat == g.batch && (v.extractLsb' 0 12).toNat == g.holdoff
  let g1 := if g.enable then g else { g with
    log2size := (v.extractLsb' 26 5).toNat, vector := (v.extractLsb' 20 6).toNat, batch := (v.extractLsb' 12 8).toNat,
    holdoff := (v.extractLsb' 0 12).toNat }
  let on := v.getLsbD 31
  let g2 := if on && !g.enable then { g1 with produced := 0, consumed := 0, quiet := 0, recs := [] } else g1
  (s.setRing w k { g2 with enable := on }, g.enable && !same)

/-- A STREAM_CONSUMED value takes effect; one ahead of PRODUCED or more than 2^s behind it is ignored (R280). -/
def applyConsumed (s : State) (w k : Nat) (v : Word) : State :=
  let g := s.ring w k
  if (g.produced - v).toNat ≤ 2 ^ g.size then s.setRing w k { g with consumed := v, shadow := none }
  else (s.setRing w k { g with shadow := none }).raiseSig w 5

/-! ### Completion (R282, Table 8.14) -/

/-- A draft row that has sampled what it was asked for sends its PROP (R285). -/
def draftAnswer (s : State) (r : Nat) : State :=
  let x := s.row r
  match x.want with
  | some (b, k, main) =>
    if k != 0 && decide (b + k ≤ x.log.length) then
      let ts := ((x.log.drop b).take k).map (·.1)
      sendSpec (s.setRow r { x with want := none }) x.part 1 2 { k := k, mainRow := main, draftRow := r, b := b, tokens := ts }
    else s
  | none => s

/-- The answer of a draft row that cannot go on: a PROP of k = 0 to a REQ for drafts (R285). -/
def emptyProp (s : State) (p : Nat) (b k main draft : Nat) : State :=
  if k = 0 then s else sendSpec s p 1 2 { k := 0, mainRow := main, draftRow := draft, b := b, tokens := [] }

/-- A draft row that ends answers the REQ that it still has: with its drafts if it has them all, else with none. -/
def lastAnswer (s : State) (r : Nat) : State :=
  let s1 := draftAnswer s r
  match (s1.row r).want with
  | some (b, k, main) => emptyProp s1 (s1.row r).part b k main r
  | none => s1

/-- The row enters DONE, or EXPORTED with code 5. -/
def enterDone (s : State) (r code : Nat) : State :=
  let s := lastAnswer s r
  let x := s.row r
  (s.setRow r { x with state := if code = 5 then 8 else 7, doneCode := code, doneTime := s.ns, finish := none, since := none,
                       want := none }).raiseSig x.owner 2

/-- The completion record goes out when the ring has room; a draft row writes none. -/
def writeCompletion (s : State) (r : Nat) : State :=
  let x := s.row r
  match x.finish with
  | none => s
  | some code =>
    if x.draft then enterDone s r code
    else if !rowRoom s x then s
    else
      let seq := x.lastSeq + 1
      let flags := 1 + (if x.missed then 2 else 0) + (if code = 3 then 4 else 0) + (if code = 4 then 8 else 0) +
        (if x.flag4 then 16 else 0)
      let s1 := writeRecord s x.owner x.ringNo r seq (recordWords r flags seq (BitVec.ofNat 32 code) s.ns)
      enterDone (s1.mapRow r fun x => { x with lastSeq := seq, flag4 := false }) r code

/-- The row completes: its record follows its last token record. -/
def complete (s : State) (r code : Nat) : State :=
  writeCompletion (s.mapRow r fun x => { x with finish := some code }) r

/-! ### Records of tokens (R278) -/

/-- The held token is logged and its record written once the ring has room. A token record carries the deadline-missed flag from the
instant of the miss on (DESIGN CHOICE, log entry 115: R275 and R282 speak of the completion record only). -/
def deliverToken (s : State) (r : Nat) : State :=
  let x := s.row r
  match x.hold with
  | none => s
  | some n =>
    if !(x.draft || rowRoom s x) then s
    else
      let g := x.genLen + 1
      let flags := (if x.missed then 2 else 0) + (if n.flags.getLsbD 0 then 8 else 0) + (if x.flag4 then 16 else 0)
      let x1 := { x with
        log := x.log.take n.tok ++ [(n.id, BitVec.ofNat 32 s.ns)]
        genLen := g
        lastSeq := if x.draft then x.lastSeq else g
        hold := none
        stalled := false
        flag4 := if x.draft then x.flag4 else false }
      let s1 := s.setRow r x1
      let s2 := if x.draft then s1
                else (writeRecord s1 x.owner x.ringNo r g (recordWords r flags g n.id s.ns)).countPart x.part ctrTokens 1
      let P := s2.part x.part
      let s3 := if P.measuring then
          s2.setPart x.part ({ P with measuring := false
                                      ctr := FMap.set 0 P.ctr ctrRecoveryNs (BitVec.ofNat 64 (s.ns - P.detected)) })
        else s2
      if n.flags.getLsbD 0 then complete s3 r 4
      else if n.id == x.stopId then complete s3 r 2
      else if x.promptLen.toNat + g = x.maxLen.toNat then complete s3 r 1
      else s3

/-! ### Speculation on the main row (R286, R287) -/

/-- SPEC fields as the Signal Box takes them (Table 8.18). -/
def Partition.kMax (P : Partition) : Nat := min 8 (P.spec.extractLsb' 28 4).toNat
def Partition.probeEvery (P : Partition) : Nat := max 8 (P.spec.extractLsb' 20 8).toNat
def Partition.waitNs (P : Partition) : Nat :=
  let v := (P.spec.extractLsb' 0 16).toNat
  if v = 0 || 8000 < v then 8000 else v

/-- The next REQ of a main row for index b: with kc drafts, or with kc zero a probe of one every `probe` delivered tokens; the
tokens since the last REQ go along (R286, R287). Nothing is sent while k_max disables speculation. -/
def sendReq (s : State) (r b : Nat) : State :=
  let x := s.row r
  let P := s.part x.part
  if P.kMax = 0 || !x.specOn then s.setRow r { x with fresh := [] }
  else
    let probe := x.kc == 0 && decide (P.probeEvery ≤ x.probes)
    let k := if probe then 1 else x.kc
    let x1 := { x with
      fresh := []
      probes := if x.kc = 0 && !probe then x.probes else 0
      asked := if k = 0 then none else some (b, s.ns)
      waited := k != 0
      working := some b
      prop := none }
    sendSpec (s.setRow r x1) x.part 0 1
      { k := k, mainRow := r, draftRow := (x.draftRow.extractLsb' 0 13).toNat, b := b, tokens := x.fresh }

/-- A token of the pass has been judged: with the pass at its end kc moves, by the drafts confirmed, and the next REQ goes out, unless the
row ends (R287). -/
def passEnd (s : State) (r tok : Nat) (ended beyond : Bool) : State :=
  if !ended then s
  else
    let x := s.row r
    let P := s.part x.part
    let kc := match x.judge with
      | some j => if 1 ≤ j.good then min (2 * max x.kc 1) P.kMax else x.kc / 2
      | none => x.kc
    let s1 := s.setRow r { x with kc := kc }
    if beyond || !x.specOn then s1 else sendReq s1 r (tok + 1)

/-! ### Token notices (R186, R278, R287, R288) -/

/-- A new token waits while the row's holding slot is full. -/
def noticeReady (s : State) (f : Flit) : Bool :=
  match f.body with
  | .token row tok _ _ =>
    let x := s.row row
    x.hold.isNone || decide (tok < x.promptLen.toNat + x.genLen) || x.state == 6 || x.stale != 0
  | _ => false

/-- Discards a notice of a verify position and counts it. -/
def discardSpec (s : State) (r : Nat) (isVerify : Bool) : State :=
  if isVerify then s.countPart (s.row r).part ctrSpecDiscard 1 else s

/-- A new token: it takes the holding slot, the pass is judged, and it is delivered if the ring has room. The positions below its index have
been appended with their final tokens, a confirmed draft's too (R312, R349, R420). -/
def newToken (s : State) (r tok : Nat) (id : Word) (flags : Byte) : State :=
  let x := s.row r
  let beyond := flags.getLsbD 0 || id == x.stopId || tok + 1 == x.maxLen.toNat
  let j1 := x.judge.map fun j =>
    let hit := j.drafts[j.next]? == some id
    { j with next := j.next + 1, good := j.good + (if hit then 1 else 0), ended := !hit || beyond }
  let ended := match j1 with
    | some j => j.ended
    | none => true
  let s1 := s.setRow r { x with
    hold := some { tok := tok, id := id, flags := flags }
    judge := j1
    closedTo := max x.closedTo tok
    fresh := if x.specOn then x.fresh ++ [id] else x.fresh
    probes := if x.specOn then x.probes + 1 else x.probes }
  let s2 := if x.draft then s1 else passEnd s1 r tok ended beyond
  draftAnswer (deliverToken s2 r) r

/-- The judgement of R278 on one notice of row r; of a draft row, a notice of a step closed before its last REQ samples a log that is void,
and is dropped (R285). -/
def judgeNotice (s : State) (r tok : Nat) (id : Word) (flags : Byte) : State :=
  let x := s.row r
  if x.stale != 0 then s.setRow r { x with stale := x.stale - 1 } else
  let next := x.promptLen.toNat + x.genLen
  let isVerify := (x.judge.map fun j => !j.drafts.isEmpty).getD false
  let s := if x.entryTok ≤ tok && x.notices != 0 then s.setRow r { x with notices := x.notices - 1 } else s
  if tok < next then
    if ((x.log[tok]?).map (·.1)) == some id then s.countPart x.part ctrReplayDup 1
    else
      let s1 := s.raiseSig x.owner 6
      -- a fault of the partition, reported to the Sufin controller (R278, R294, Table 12.1)
      errorEvent (if x.owner = 0 then s1 else s1.raiseSig 0 6)
        { cls := 0x22, part := if h : x.part < 16 then some ⟨x.part, h⟩ else none, region := none, tile := none, detail := 0, loc := 0 }
  else if x.state == 6 || x.state == 7 || x.state == 8 then
    discardSpec s r (isVerify || x.state != 6)
  else if x.state != 5 then s
  else if (x.judge.map (·.ended)).getD false then discardSpec s r isVerify
  else if tok = next then newToken s r tok id flags
  else s

end Sys2Proof.Machine
end

