-- ==== Sys2Proof/Machine/Accept.lean ====
section
/-! DEFINITION. Acceptance of submitted rows: the checks of Table 8.8, the reservation, prefix attachment and private copies
(R264, R265, R303, R319, R320, R507). -/
namespace Sys2Proof.Machine

/-! ### Generations in service -/

/-- The copy and generation that new rows are pinned to (R347). -/
def Partition.currentGen (P : Partition) : Option (Bool × Gen) :=
  match P.copy0, P.copy1 with
  | some g, h => if g.current then some (false, g) else match h with
    | some k => if k.current then some (true, k) else none
    | none => none
  | none, some k => if k.current then some (true, k) else none
  | none, none => none

/-- Copy of a pinned weight generation (R345). -/
def Partition.copyOf (P : Partition) (no : Nat) : Bool := (P.copy1.map (·.no)) == some no

/-- The slot generation that a new row would be pinned to, and its copy (R356–R359). -/
def Slot.current (x : Slot) : Option (Bool × SlotGen) :=
  if x.retired then none
  else match x.copy0, x.copy1 with
    | some g, h => if g.current then some (false, g) else match h with
      | some k => if k.current then some (true, k) else none
      | none => none
    | none, some k => if k.current then some (true, k) else none
    | none, none => none

/-- The slot serves a row of the current weight generation (R356, R358). -/
def slotServes (P : Partition) (x : Row) : Bool :=
  let sl := P.slot x.adaptSlot
  match P.currentGen, sl.current with
  | some (_, g), some (_, a) => a.man.base == g.man.digest && (x.owner == 0 || sl.owner == some x.owner)
  | _, _ => false

/-! ### Prefix handles (R317, R319) -/

/-- The handle a value names, when it is live and its generation count agrees. -/
def handleOf (s : State) (v : Word) : Option (Nat × Handle) :=
  let i := (v.extractLsb' 0 12).toNat
  let h := s.handle i
  if i != 0 && v.extractLsb' 12 4 == 0 && h.live && h.gen == v.extractLsb' 16 16 then some (i, h) else none

/-- PREFIX names a handle that the row may use, resident in its partition. -/
def prefixOk (s : State) (x : Row) : Bool :=
  x.pfx == 0 || (match handleOf s x.pfx with
    | some (_, h) => h.parked.isNone && h.part == x.part && (x.owner == 0 || h.owner == x.owner)
    | none => false)

/-- Length of the common start of two token lists. -/
def commonStart : List Word → List Word → Nat
  | a :: as, b :: bs => if a = b then commonStart as bs + 1 else 0
  | _, _ => 0

/-- A private copy of the page of position m would need a slot that the partition cannot give: one of K8/V8 where slots hold K4/V4
only (R316). -/
def copyBarred (P : Partition) (h : Handle) (m : Nat) : Bool :=
  !P.layout.2.1 && h.pages.tables.any fun kv => match (kv.2[m / 64]?).bind fun t => P.page t.page with
    | some i => i.k8
    | none => false

/-- Positions that the row attaches (R319); whole pages only where the copy of the last one is barred (log entry 111). -/
def attachLen (s : State) (P : Partition) (x : Row) : Nat :=
  if x.pfx == 0 then 0
  else match handleOf s x.pfx, P.currentGen with
    | some (_, h), some (_, g) =>
      let slot := if x.adaptNone then none
                  else some (x.adaptSlot, ((P.slot x.adaptSlot).current.map fun a => a.2.no).getD 0)
      if h.weightGen = g.no && h.slot = slot then
        let m := min (min (commonStart (x.log.map (·.1)) h.tokens) h.len) (x.promptLen.toNat - 1)
        if m % 64 != 0 && copyBarred P h m then 64 * (m / 64) else m
      else 0
    | _, _ => 0

/-! ### Reservation (R265, R303, R507) -/

/-- Pages per layer that the row is to hold (R265). -/
def Row.pagesNeeded (x : Row) : Nat := cdiv (if x.isExport then x.promptLen.toNat else x.maxLen.toNat) 64

/-- A run for page k of one layer, beside the runs already chosen. -/
def reserveOne (s : State) (r p units : Nat) (acc : Option (List Run)) (l k : Nat) : Option (List Run) :=
  match acc with
  | none => none
  | some runs =>
    (placePage s p ((s.part p).plat l) (r + k) units runs).map fun hu =>
      runs ++ [{ layer := l, k := k, home := hu.1, unit := hu.2, units := units }]

/-- Frame units of page k of a layer for a row: of the format of new pages, or of the page that it is to hold a private copy of (R314,
R320). -/
def unitsFor (P : Partition) (src : Option Handle) (m l k : Nat) : Nat :=
  let k8 := match src with
    | some h => if k = m / 64 && m % 64 != 0 then
        ((((FMap.get [] h.pages.tables l)[k]?).bind fun t => P.page t.page).map (·.k8)).getD P.kvFmt else P.kvFmt
    | none => P.kvFmt
  pageUnits P.groups k8

/-- Runs for the pages of every layer from the one of position m to page `last` − 1. -/
def reserveRuns (s : State) (r p m last : Nat) : Option (List Run) :=
  let P := s.part p
  let src := (handleOf s (s.row r).pfx).map (·.2)
  P.feet.foldl (fun acc f => (List.range (last - m / 64)).foldl (fun acc i =>
    reserveOne s r p (unitsFor P src m f.layer (m / 64 + i)) acc f.layer (m / 64 + i)) acc) (some [])

/-- The whole reservation: runs, slot count and table lines; pages wholly below the attached length are shared. -/
def reservation (s : State) (r : Nat) : Option (List Run × Nat × Nat × Nat) :=
  let x := s.row r
  let P := s.part x.part
  let m := attachLen s P x
  let chunks := !x.isImport && decide (m + 2 ≤ x.promptLen.toNat)
  let slots := slotNeed P chunks
  let lines := cdiv (x.pagesNeeded + 1) 128
  match reserveRuns s r x.part m x.pagesNeeded, tableRun s x.part lines with
  | some runs, some base => if slotsFit s x.part slots then some (runs, slots, base, lines) else none
  | _, _ => none

/-! ### The checks (Table 8.8) -/

/-- Rows of the owner, or of the partition, from acceptance on. -/
def ownerActive (s : State) (o : Nat) : Nat := (s.rows.filter fun kv => kv.2.owner == o && kv.2.active).length
def partActive (s : State) (p : Nat) : Nat := ((s.rowsOf p).filter fun kv => kv.2.active).length

/-- SERVE fields as taken (Table 8.17). -/
def Partition.rowCap (P : Partition) : Nat := min 8192 (P.serve.extractLsb' 16 14).toNat
def Partition.rowsMax (P : Partition) : Nat := max 1 (min 8 (P.serve.extractLsb' 12 4).toNat)
def Partition.chunksMax (P : Partition) : Nat := min 4 (P.serve.extractLsb' 9 3).toNat

/-- Check 3. -/
def badPartition (s : State) (x : Row) : Bool :=
  let P := s.part x.part
  !((s.vif x.owner).partMask.getLsbD x.part) || P.role == 2 ||
  (x.isExport && P.role == 0) || (!x.isExport && P.role == 1) || (x.draft && (P.draftLink 1).isNone)

/-- The refusal code of a considered row; 0 when it passes. -/
def refusalOf (s : State) (r : Nat) : Nat :=
  let x := s.row r
  let P := s.part x.part
  if x.fetch == .failed then 0x0A
  else if !P.loaded || P.rstate == 3 then 0x0B
  else if badPartition s x then 0x04
  else match P.currentGen with
    | none => 0x03
    | some (_, g) =>
      if x.promptLen == 0 || 262143 < x.promptLen.toNat || x.maxLen.toNat ≤ x.promptLen.toNat || 262144 < x.maxLen.toNat then 0x05
      else if x.log.any fun t => g.man.vocab ≤ t.1.toNat then 0x0C
      else if !x.adaptNone && !slotServes P x then 0x06
      else if !prefixOk s x then 0x07
      else if x.specOn && ((P.draftLink 0).isNone || !x.draftRow.getLsbD 31) then 0x09
      else if (s.vif x.owner).rowQuota ≤ ownerActive s x.owner then 0x02
      else if P.rowCap ≤ partActive s x.part then 0x01
      else if (reservation s r).isNone then 0x08
      else 0

/-! ### Attachment and private copies (R319, R320) -/

/-- Attaches the pages of one layer: those wholly below m by reference, the one that holds position m − 1 as a private copy in
a new frame, a resume entry with m mod 64 positions. -/
def attachLayer (s : State) (r : Nat) (h : Handle) (m l : Nat) : State :=
  let x := s.row r
  let p := x.part
  let src := FMap.get [] h.pages.tables l
  let whole := (src.take (m / 64)).map fun t => ({ page := t.page, shared := true, sealed_ := true } : Tent)
  let s1 := s.mapPart p fun P => whole.foldl (fun P t => match P.page t.page with
    | some i => P.setPage t.page (some { i with refs := i.refs + 1 })
    | none => P) P
  let s2 := s1.mapRow r fun x => { x with pages := whole.foldl (fun ps t => ps.append l t) x.pages }
  if m % 64 = 0 then s2
  else match src[m / 64]?, (s2.row r).runs.find? fun u => u.layer == l && u.k == m / 64 with
    | some t, some u =>
      let k8 := (((s2.part p).page t.page).map (·.k8)).getD false
      let id := pageId u.home u.unit
      let slot := if slotLeft s2 r l then freeSlot (s2.part p) u.home else none
      let ls := pageContents s2 p t.page
      let s3 := s2.mapPart p fun P =>
        (P.setPage id (some { layer := l, k8 := k8, st := .filling, refs := 1, slot := slot })).count ctrCow 1
      let s4 := writeFrame s3 p id r ls
      s4.mapRow r fun x => { x with
        runs := x.runs.filter fun v => !(v.layer == l && v.k == m / 64)
        pages := { x.pages.append l { page := id, resume := true, fill := m % 64 } with acks := x.pages.acks + ls.length } }
    | _, _ => s2

/-- Attaches m positions of the row's handle in every layer and writes the tables; an m below Lp raises PFX_SHORT. -/
def attach (s : State) (r m : Nat) : State :=
  let x := s.row r
  if x.pfx == 0 then s
  else match handleOf s x.pfx with
    | none => s
    | some (_, h) =>
      let s1 := if m < h.len then (s.countPart x.part ctrPfxShort 1).raiseKvp x.owner 5 else s
      if m = 0 then s1
      else
        let feet := (s1.part x.part).feet
        let s2 := feet.foldl (fun (s : State) (f : Foot) => attachLayer s r h m f.layer) s1
        let changed := feet.flatMap fun f => (List.range ((m + 63) / 64)).map fun k => (f.layer, k)
        let w := writeTables s2 x.part r (s2.row r).pages changed
        w.1.mapRow r fun x => { x with pages := w.2 }

/-! ### Acceptance (R265) -/

/-- The last position that the row's first entry appends, an import row's decode entry among them (R305). -/
def firstEntryTop (x : Row) : Nat :=
  let pl := x.promptLen.toNat
  if x.nextPos + 2 ≤ pl && !x.isImport then min (256 * (x.nextPos / 256) + 255) (pl - 2) else pl - 1

/-- Accepts a row that passed every check: pinned, reserved, attached, its first pages allocated. -/
def acceptRow (s : State) (r : Nat) : State :=
  let x := s.row r
  let P := s.part x.part
  match reservation s r, P.currentGen with
  | some (runs, slots, base, lines), some (_, g) =>
    let m := attachLen s P x
    let x1 := { x with
      state := if x.isImport then 9 else 3
      refusal := 0
      weightGen := g.no
      adaptGen := if x.adaptNone then 0 else ((P.slot x.adaptSlot).current.map fun a => a.2.no).getD 0
      acceptTime := s.ns
      pageRoot := BitVec.ofNat 32 (0x40000000 + base)
      pages := { base := base, lines := lines, acks := x.pages.acks }
      runs := runs
      slots := slots
      nextPos := m
      closedTo := m
      exportsLeft := if x.isExport then P.feet.length * cdiv (x.promptLen.toNat - 1) 64 else 0
      exported := [], due := 0, shipRefused := 0, attached := m
      pfxSeed := ((handleOf s x.pfx).map (·.2.seed)).getD 0
      kc := P.kMax
      fresh := [], probes := 0, asked := none, prop := none, judge := none, waited := false, notices := 0, want := none
      fed := x.promptLen.toNat - 1
      working := none, stale := 0, staleTo := 0
      since := none, overdue := false }
    let s1 := attach (s.setRow r x1) r m
    allocTo s1 r (firstEntryTop (s1.row r))
  | _, _ => s

/-- Accepts or refuses one considered row (R264). -/
def considerRow (s : State) (r : Nat) : State :=
  let x := s.row r
  match refusalOf s r with
  | 0 => acceptRow s r
  | code =>
    ((s.setRow r { x with state := 1, refusal := code, fetch := .idle }).countPart x.part ctrRefused 1).raiseSig x.owner 0

/-- Rows considered at a boundary of a partition, in the order of their commits (R263, R264). -/
def considered (s : State) (p : Nat) : List Nat :=
  let c := (s.rowsOf p).filter fun kv => kv.2.state == 2 && !kv.2.withdraw && (kv.2.fetch == .done || kv.2.fetch == .failed)
  (sortBy (fun a b => decide (a.2.commitNo ≤ b.2.commitNo)) c).map (·.1)

end Sys2Proof.Machine
end

