-- ==== Sys2Proof/Machine/Ship.lean ====
section
/-! DEFINITION. Ship messages: export, import, acknowledgement and retry (R277, R325–R327). -/
namespace Sys2Proof.Machine

/-- Manifest digests that a row's pages carry: of its pinned weight generation and of its adapter (Table 9.7). -/
def rowDigests (s : State) (x : Row) : BitVec 384 × BitVec 384 :=
  let P := s.part x.part
  let model := ((P.gen (P.copyOf x.weightGen)).map (·.man.digest)).getD 0
  let sl := P.slot x.adaptSlot
  let ad := if x.adaptNone then 0
    else if (sl.copy0.map (·.no)) == some x.adaptGen then (sl.copy0.map (·.man.digest)).getD 0
    else (sl.copy1.map (·.man.digest)).getD 0
  (model, ad)

/-- Sends a ship message and keeps it until it is acknowledged. -/
def ship (s : State) (p : Nat) (hall : BitVec 16) (m : ShipMsg) (window : Option Nat) : State :=
  let s1 := { s with shipped := s.shipped ++ [{ part := p, msg := m, hall := hall, at_ := s.ns, window := window }] }
  sendMessage s1 p hall m.destPart (ShipMsg.bytes m)

/-- EXPORT_DEST: hall address, partition, import row (Table 8.1). -/
def Row.dest (x : Row) : BitVec 16 × Nat × Nat :=
  (x.exportDest.extractLsb' 48 16, (x.exportDest.extractLsb' 32 4).toNat, (x.exportDest.extractLsb' 0 13).toNat)

/-- Ships page k of a layer of an export row, once (R277, R325). -/
def exportPage (s : State) (r l k : Nat) : State :=
  let x := s.row r
  match if x.exported.contains (l, k) then none else x.pages.later l k with
  | none => s
  | some t =>
    let s := s.setRow r { x with exported := x.exported ++ [(l, k)] }
    let fill := min 64 (x.promptLen.toNat - 1 - 64 * k)
    let k8 := (((s.part x.part).page t.page).map (·.k8)).getD false
    let d := rowDigests s x
    ship s x.part x.dest.1
      { kind := if fill < 64 then 5 else 4, fmt := if k8 then 1 else 0, destRow := x.dest.2.2, k := k, layer := l, fill := fill,
        destPart := x.dest.2.1, srcRow := r, srcHall := s.hall.addr, reqSeed := x.reqSeed, promptLen := x.promptLen.toNat,
        model := d.1, adapter := d.2, lines := rowPage s r t k } none

/-- Ships in every layer the pages of a row that are complete and below `top` and not shipped yet: those from `first` on. -/
def exportPages (s : State) (r first top : Nat) : State :=
  (s.part (s.row r).part).feet.foldl (fun (s : State) (f : Foot) =>
    (List.range (top - first)).foldl (fun s i => exportPage s r f.layer (first + i)) s) s

/-- The acknowledgement of a message. -/
def ackTo (s : State) (p : Nat) (m : ShipMsg) (row status : Nat) : State :=
  sendMessage s p m.srcHall m.destPart (ShipAck.bytes { row := row, k := m.k, layer := m.layer, status := status })

/-- The run that a row has set aside for page k of a layer. -/
def Row.runFor (x : Row) (l k : Nat) : Option Run := x.runs.find? fun u => u.layer == l && u.k == k

def Row.dropRun (x : Row) (l k : Nat) : Row := { x with runs := x.runs.filter fun v => !(v.layer == l && v.k == k) }

/-- Home and first unit for a page that arrives: the run set aside for it, or by R306 a new one for a page larger than that run. -/
def shipPlace (s : State) (p : Nat) (m : ShipMsg) : Option (Nat × Nat) :=
  let P := s.part p
  let units := pageUnits P.groups (m.fmt != 0)
  ((s.row m.destRow).runFor m.layer m.k).bind fun u =>
    if units ≤ u.units then some (u.home, u.unit)
    else placePage (s.mapRow m.destRow fun x => x.dropRun m.layer m.k) p (P.plat m.layer) (m.destRow + m.k) units []

/-- The page stands in the import row's table already: the message has come again (R327). -/
def shipTwice (s : State) (p : Nat) (m : ShipMsg) : Bool :=
  let x := s.row m.destRow
  x.isImport && x.part == p && 3 ≤ x.state && m.reqSeed == x.reqSeed && m.promptLen == x.promptLen.toNat &&
  decide (64 * m.k + 1 < x.promptLen.toNat) && (match x.pages.entry m.layer m.k with
    | some t => t.page != 0xFFFFFFFF
    | none => false)

/-- Status of R326 for a page for an import row; 0 when it is accepted. -/
def shipStatus (s : State) (p : Nat) (m : ShipMsg) : Nat :=
  let x := s.row m.destRow
  let P := s.part p
  let d := rowDigests s x
  if x.part == p && 6 ≤ x.state && x.shipRefused != 0 then x.shipRefused
  else if x.state != 9 || x.part != p then 1
  else if m.model != d.1 then 2
  else if m.adapter != d.2 then 3
  else if m.reqSeed != x.reqSeed || m.promptLen != x.promptLen.toNat then 4
  else if 1 < m.fmt || (m.fmt != 0 && m.fill < 64 && !P.layout.2.1) then 5
  else if (shipPlace s p m).isNone then 6
  else 0

/-- What the acknowledgement of a message says. -/
def ackOf (m : ShipMsg) (status : Nat) : ShipAck := { row := m.destRow, k := m.k, layer := m.layer, status := status }

/-- Adds a landing of `left` lines; with none to write the acknowledgement goes at once. -/
def addLanding (s : State) (p : Nat) (m : ShipMsg) (row : Option Nat) (left : Nat) : State :=
  if left = 0 then ackTo s p m m.destRow 0
  else s.mapPart p fun P => { P with
    landNo := P.landNo + 1
    landings := P.landings ++ [{ no := P.landNo, row := row, left := left, hall := m.srcHall, part := m.destPart, ack := ackOf m 0 }] }

/-- Puts an accepted page into its frame and table; a page that arrives ahead of its neighbours leaves "no page" entries. It is
acknowledged when every line of it is written (R326). -/
def placeShip (s : State) (p : Nat) (m : ShipMsg) : State :=
  let r := m.destRow
  match shipPlace s p m with
  | none => s
  | some (home, u) =>
    let s0 := s.mapRow r fun x => x.dropRun m.layer m.k
    let P := s0.part p
    let x := s0.row r
    let id := pageId home u
    let who := landMark P.landNo
    let slot := if m.fill < 64 && slotLeft s0 r m.layer then freeSlot P home else none
    let s1 := s0.setPart p ((P.setPage id (some { layer := m.layer, k8 := m.fmt != 0, st := if m.fill < 64 then .filling else .full,
                                                  refs := 1, slot := slot })).count ctrShipIn 1)
    let s2 := writeFrame s1 p id who m.lines
    let t : Tent := { page := id, sealed_ := decide (64 ≤ m.fill), resume := decide (m.fill < 64), fill := if m.fill < 64 then m.fill else 0 }
    let w := writeTables s2 p who { x.pages.place m.layer m.k t with acks := x.pages.acks + m.lines.length } [(m.layer, m.k)]
    addLanding (w.1.mapRow r fun x => { x with pages := w.2 }) p m (some r) (w.2.acks - x.pages.acks)

/-- A line of a landing is written: it counts for its row, and with the last one the acknowledgements go (R326, R327). -/
def landed (s : State) (p no : Nat) : State :=
  match (s.part p).landings.find? fun L => L.no == no with
  | none => s
  | some L =>
    let s1 := match L.row with
      | some r => s.mapRow r fun x => { x with pages := { x.pages with acks := x.pages.acks - 1 } }
      | none => s
    if 1 < L.left then s1.mapPart p fun P => { P with
      landings := P.landings.map fun M => if M.no = no then { M with left := M.left - 1 } else M }
    else (List.range L.acks).foldl (fun s _ => sendMessage s p L.hall L.part (ShipAck.bytes L.ack))
      (s1.mapPart p fun P => { P with landings := P.landings.filter fun M => M.no != no })

/-- A message that comes again is acknowledged again: at once, or when the page is written (R327). -/
def ackAgain (s : State) (p : Nat) (m : ShipMsg) : State :=
  let same := fun (L : Landing) => L.hall == m.srcHall && L.ack == ackOf m 0
  if (s.part p).landings.any same then s.mapPart p fun P => { P with
    landings := P.landings.map fun L => if same L then { L with acks := L.acks + 1 } else L }
  else ackTo s p m m.destRow 0

/-- SHIP_REFUSED in the owner's KVP page and in the physical function's (R332). -/
def raiseShipRefused (s : State) (w : Nat) : State :=
  let s1 := s.raiseKvp w 3
  if w = 0 then s1 else s1.raiseKvp 0 3

/-- A refusal is counted and raised; it drains the import row as a cancel would, so that it completes with code 3, and the row's later
pages get the same status (R326). The page of a row that is FREE or of another partition concerns the physical function only. -/
def refuseShip (s : State) (p : Nat) (m : ShipMsg) (status : Nat) : State :=
  let x := s.row m.destRow
  let s2 := raiseShipRefused (s.countPart p ctrShipRefused 1) (if x.state != 0 && x.part == p then x.owner else 0)
  if x.state == 9 && x.part == p then
    complete (s2.setRow m.destRow { x with state := 6, cancelAt := x.lastSeq, shipRefused := status }) m.destRow 3
  else s2

/-- The place of a page of another module's handle that is parked here already. -/
def guestOf (P : Partition) (m : ShipMsg) : Option Guest :=
  P.guests.find? fun g => g.hall == m.srcHall && g.handle == m.srcRow && g.layer == m.layer && g.k == m.k

/-- Page of a handle parked here: a handle index stands in dest_row for a cache partition (R328). One that comes again with the same
lines is there already; one with other lines takes the place of the one before (R327; log entry 112). -/
def placeParked (s : State) (p : Nat) (m : ShipMsg) : State :=
  let P := s.part p
  let k8 := m.fmt != 0
  match guestOf P m with
  | some g =>
    if ((P.page g.page).map (·.k8)) == some k8 && frameLines s p g.page k8 == m.lines then ackAgain s p m
    else store (s.setPart p { dropPage P g.page with guests := P.guests.erase g })
  | none => store s
where
  store (s : State) : State :=
    let P := s.part p
    match placePage s p P.storeTiles (m.destRow + m.k + m.layer) (pageUnits P.groups (m.fmt != 0)) [] with
    | none => ackTo (raiseShipRefused (s.countPart p ctrShipRefused 1) 0) p m m.destRow 6
    | some (home, u) =>
      let id := pageId home u
      let g : Guest := { hall := m.srcHall, handle := m.srcRow, layer := m.layer, k := m.k, page := id }
      let P1 := (P.setPage id (some { layer := m.layer, k8 := m.fmt != 0, st := .full, refs := 1, slot := none })).count ctrShipIn 1
      addLanding (writeFrame (s.setPart p { P1 with guests := P1.guests ++ [g] }) p id (landMark P.landNo) m.lines) p m none m.lines.length

/-- A ship message arrives: it is checked and placed, and acknowledged when it is written; a page that came before is acknowledged
again; a refusal is an acknowledgement too. -/
def execShipMessageRx (p : PartId) (m : ShipMsg) (s : State) : Out :=
  let P := s.part p.val
  if P.role == 2 then .next (if P.loaded then placeParked s p.val m else s)
  else if shipTwice s p.val m then .next (ackAgain s p.val m)
  else
    match shipStatus s p.val m with
    | 0 => .next (placeShip s p.val m)
    | c => .next (ackTo (refuseShip s p.val m c) p.val m m.destRow c)

/-- Pages still to be acknowledged fall by one; with none left the export completes (R277). -/
def exportAcked (s : State) (r status : Nat) : State :=
  let x := s.row r
  let p := x.part
  let s1 := if status = 0 then s.countPart p ctrShipOut 1 else (raiseShipRefused (s.countPart p ctrShipRefused 1) x.owner)
  let s2 := s1.mapRow r fun x => { x with exportsLeft := x.exportsLeft - 1 }
  if (s2.row r).exportsLeft = 0 && x.state == 4 then complete s2 r 5 else s2

/-- Ends a KVP command (R330). -/
def State.endKv (s : State) (w : Nat) (status : Byte) (result : Option Word) : State :=
  let K := s.kv w
  (s.setKv w { K with busy := false, status := status, run := none, result := result.getD K.result }).raiseKvp w
    (if status = 0 then 0 else 1)

/-- Value of a handle (R317). -/
def handleValue (i : Nat) (gen : BitVec 16) : Word := BitVec.ofNat 32 (gen.toNat * 65536 + i)

/-- A command within the module ends when every line of its handle is written: CREATE with the handle's value; PARK gives up the serving
pages that the handle had; after a RECALL it still holds those in the cache partition (R318, R328, R330). -/
def kvFinish (s : State) (w : Nat) : State :=
  match (s.kv w).run with
  | none => s
  | some R =>
    let H := s.handle R.handle
    if R.away || H.pages.acks != 0 then s
    else if R.op = 1 then s.endKv w 0 (some (handleValue R.handle H.gen))
    else if R.op = 3 then
      let s1 := s.mapPart H.part fun P => dropSet P H.pages
      (s1.setHandle R.handle { H with part := R.part, pages := R.pages, parked := some (s.hall.addr, R.part) }).endKv w 0 none
    else
      (s.setHandle R.handle { H with
        part := R.part, pages := R.pages, parked := none, kept := H.kept ++ [(H.part, H.pages)] }).endKv w 0 none

/-- The windows whose running command is about handle h. -/
def kvOn (s : State) (h : Nat) : List Nat :=
  (s.kvp.filter fun kv => (kv.2.run.map (·.handle)) == some h).map (·.1)

/-- Every line of handle h is written. -/
def kvWritten (s : State) (h : Nat) : State := (kvOn s h).foldl kvFinish s

/-- What a running command has set aside goes back, and its messages go no further. -/
def kvDrop (s : State) (w : Nat) : State :=
  match (s.kv w).run with
  | none => s
  | some R =>
    let s1 := if R.away then s else s.mapPart R.part fun P => dropSet P R.pages
    { s1 with shipped := s1.shipped.filter fun y => y.window != some w }

/-- A running command fails. -/
def kvFail (status : Byte) (s : State) (w : Nat) : State := (kvDrop s w).endKv w status none

/-- The serving pages of a handle are given up and it stands parked at its destination (R328). -/
def parkDone (s : State) (h : Nat) (hall : BitVec 16) (part : Nat) : State :=
  let H := s.handle h
  let s1 := s.mapPart H.part fun P => dropSet P H.pages
  s1.setHandle h { H with pages := { H.pages with tables := [], lines := 0 }, parked := some (hall, part) }

/-- An acknowledgement counts for the page message of its partition that it answers; a PARK ends with its last one, or fails at a refusal. -/
def execShipAckRx (p : PartId) (a : ShipAck) (s : State) : Out :=
  match s.shipped.find? fun x => x.part == p.val && x.msg.destRow == a.row && x.msg.k == a.k && x.msg.layer == a.layer with
  | none => .next s
  | some x =>
    let s1 := { s with shipped := s.shipped.erase x }
    match x.window with
    | none => .next (exportAcked s1 x.msg.srcRow a.status)
    | some w =>
      match (s1.kv w).run with
      | none => .next s1
      | some R =>
        let home := (s1.handle R.handle).part
        if a.status != 0 then .next (kvFail 9 (raiseShipRefused (s1.countPart home ctrShipRefused 1) w) w)
        else
          let left := R.left.filter fun e => !(e.1 == a.layer && e.2 == a.k)
          let s1 := s1.countPart home ctrShipOut 1
          let s2 := s1.setKv w { s1.kv w with run := some { R with left := left } }
          .next (if left.isEmpty then (parkDone s2 R.handle R.hall R.part).endKv w 0 none else s2)

/-- A message unacknowledged for 1 ms is sent again (R327); a command's message gives up after 64 attempts (Table 9.10). -/
def execShipRetry (p : PartId) (i : Nat) (s : State) : Out :=
  match s.shipped[i]? with
  | none => .next s
  | some x =>
    if x.part != p.val || decide (s.ns < x.at_ + 1000000) then .next s
    else match x.window with
      | some w =>
        if 64 ≤ x.tries then .next (kvFail 9 s w)
        else .next ((sendMessage { s with shipped := s.shipped.set i { x with at_ := s.ns, tries := x.tries + 1 } } p.val x.hall
          x.msg.destPart (ShipMsg.bytes x.msg)).countPart p.val ctrShipRetry 1)
      | none => .next ((sendMessage { s with shipped := s.shipped.set i { x with at_ := s.ns, tries := x.tries + 1 } } p.val x.hall
          x.msg.destPart (ShipMsg.bytes x.msg)).countPart p.val ctrShipRetry 1)

end Sys2Proof.Machine
end

