-- ==== Sys2Proof/Machine/Boundary.lean ====
section
/-! DEFINITION. Step boundaries: shadows, switches, cancels, acceptances and the manifest; sending it; and the credits, notices
and acknowledgements that come back (R21, R267–R276, R302, R312, R347, R403). -/
namespace Sys2Proof.Machine

/-! ### Buckets and rank (R272, R273) -/

def bucketOf (n : Nat) : Nat :=
  if n ≤ 1024 then 0 else if n ≤ 4096 then 1 else if n ≤ 16384 then 2 else if n ≤ 65536 then 3 else 4

def Row.priority (x : Row) : Nat := (x.ctrl.extractLsb' 25 3).toNat
/-- Effective priority at hall time `now`. -/
def Row.rankPrio (x : Row) (now : Nat) : Nat := min 7 (x.priority + (now - x.since.getD now) / 10000000)
/-- Overdue at `now`, and since when (R272). -/
def Row.late (x : Row) (now : Nat) : Option Nat :=
  match x.since with
  | some t => if t + 80000000 ≤ now then some (t + 80000000) else none
  | none => none

/-- Whether row a goes before row b: the keys of R272 in order. -/
def before (now : Nat) (a b : Nat × Row) : Bool :=
  let key : Nat × Row → List Nat := fun kv =>
    let x := kv.2
    let dl := if x.deadline = 0 then 2 ^ 64 else x.deadline.toNat
    match x.late now with
    | some t => [0, t, 7 - x.rankPrio now, dl, x.since.getD now, kv.1]
    | none => [1, 0, 7 - x.rankPrio now, dl, x.since.getD now, kv.1]
  decide (key a ≤ key b)

/-! ### Ready rows (R271, R276, R285, R286, R305) -/

/-- What a ready row would ride: kind, first index, positions, drafts, and the end of what it appends. -/
structure Ride where
  kind : Nat
  tok  : Nat
  n    : Nat
  drafts : List Word := []
  rebuild : Bool := false
  deriving DecidableEq, Repr

def Ride.bucket (v : Ride) : Nat := bucketOf (if v.kind = 2 then v.tok + v.n else v.tok + v.n - 1)

/-- Last position of the chunk that starts at `pos` (R276). -/
def chunkTop (pos pl : Nat) : Nat := min (256 * (pos / 256) + 255) (pl - 2)

/-- The verify entry that R288 and R311 leave of a PROP, or a decode entry. -/
def verifyRide (x : Row) (tok : Nat) : Ride :=
  let d := x.prop.getD []
  let k1 := min d.length (62 - (tok - 1) % 64)
  let k2 := min k1 (x.maxLen.toNat - 1 - tok)
  if k2 = 0 then { kind := 0, tok := tok, n := 1 } else { kind := 1, tok := tok, n := k2 + 1, drafts := d.take k2 }

/-- The last position that the next entry of a row in RUNNING could append, from its first one `pos` on: p0 + 9 of a decode or verify
entry, for a draft row the end of the second page, where its feed chunks end (R285, R305; log entry 111). -/
def Row.reach (x : Row) (pos : Nat) : Nat := if x.draft then 64 * (pos / 64 + 2) - 1 else pos + 8

/-- The ride a row has to make, if its state and steps in flight allow one. -/
def rideOf (P : Partition) (r : Nat) (x : Row) : Option Ride :=
  let pl := x.promptLen.toNat
  let rid := P.riding r
  let chunks := (rid.filter fun e => e.kind == 2).length
  let gens := rid.any fun e => e.kind != 2
  match x.rebuild with
  | (a, b) :: _ =>
    if chunks < P.window then some { kind := 2, tok := a, n := min 256 (b + 1 - a), rebuild := true } else none
  | [] =>
    if x.cancel || !x.active || x.state == 6 || x.finish.isSome then none
    else if x.state == 3 || x.state == 4 then
      if x.nextPos + 2 ≤ pl then
        if chunks < P.window then some { kind := 2, tok := x.nextPos, n := chunkTop x.nextPos pl + 1 - x.nextPos } else none
      else if x.isExport || x.state == 4 || x.draft then none
      else some { kind := 0, tok := pl, n := 1 }
    else if x.state == 9 then none
    else if gens || x.hold.isSome || x.notices != 0 then none
    else if x.draft then
      match x.want with
      | none => none
      | some (b, k, _) =>
        let top := if k = 0 then b else b - 1
        if x.fed < top then
          if rid.isEmpty then some { kind := 2, tok := x.fed, n := min (Row.reach x x.fed + 1 - x.fed) (top - x.fed) } else none
        else if k = 0 then none
        else some { kind := 0, tok := x.log.length, n := 1 }
    else if x.specOn && x.asked.isSome then none
    else some (verifyRide x (pl + x.genLen))

/-- First and last position that a ride appends (R295). -/
def Ride.first (v : Ride) : Nat := if v.kind = 2 then v.tok else v.tok - 1
def Ride.top (v : Ride) : Nat := v.first + v.n - 1

/-- The copies that a row's entries name: weight copy, and adapter slot copy (R350, R357). -/
def weightCopy (P : Partition) (x : Row) (pos : Nat) (rebuild : Bool) : Bool :=
  match x.oldGen with
  | some (old, sw) => if rebuild && decide (pos < sw) then P.copyOf old else P.copyOf x.weightGen
  | none => P.copyOf x.weightGen

def slotCopy (P : Partition) (x : Row) : Option (Nat × Bool) :=
  if x.adaptNone then none else some (x.adaptSlot, ((P.slot x.adaptSlot).copy1.map (·.no)) == some x.adaptGen)

/-- A repair of the badger, its master verified, waits for steps that name the copy to drain: no further manifest names it (R353). -/
def underRepair (s : State) (p : Nat) (x : Row) (v : Ride) : Bool :=
  let P := s.part p
  s.house.repairs.any fun j => j.lines && !j.refetch && j.part == p && (match j.slot with
    | none => j.copy == weightCopy P x v.first v.rebuild
    | some k => slotCopy P x == some (k, j.copy))

/-- Every page of the ride is in the row's tables, every table write done. -/
def pagesReady (s : State) (r : Nat) (x : Row) (v : Ride) : Bool :=
  pagesTo s r v.top && pagesOpen s r v.first v.top && x.pages.acks == 0 && x.pages.held.isEmpty

/-- Ready rows of a partition that a manifest may take now, with their rides. -/
def readyRows (s : State) (p : Nat) : List ((Nat × Row) × Ride) :=
  let P := s.part p
  (s.rowsOf p).filterMap fun kv =>
    match rideOf P kv.1 kv.2 with
    | some v => if pagesReady s kv.1 kv.2 v && !underRepair s p kv.2 v then some (kv, v) else none
    | none => none

/-- An IMPORTED row has every page of its prompt positions (R271). -/
def importReady (s : State) (r : Nat) (x : Row) : Bool :=
  x.state == 9 && x.pages.acks == 0 && (x.promptLen.toNat ≤ 1 || pagesTo s r (x.promptLen.toNat - 2))

/-- A row is ready (R271): also an IMPORTED one with all its pages, and one that a repair of the badger keeps out of manifests. -/
def isReady (s : State) (p r : Nat) (x : Row) : Bool :=
  importReady s r x || (match rideOf (s.part p) r x with
    | some v => pagesReady s r x v
    | none => false)

/-- Rows that have become ready start their wait, and one that is ready no longer waits no longer (R272). -/
def noteReady (s : State) (p : Nat) : State :=
  (s.rowsOf p).foldl (fun (s : State) (kv : Nat × Row) =>
    if isReady s p kv.1 kv.2 then
      (if kv.2.since.isNone then s.mapRow kv.1 fun x => { x with since := some s.ns } else s)
    else if kv.2.since.isSome then s.mapRow kv.1 fun x => { x with since := none, overdue := false } else s) s

/-- The waits of every row, as one clk finds them: hall time moves in no command (R272). -/
def noteAll (s : State) : State :=
  ((s.parts.filter fun kv => kv.2.loaded).map (·.1)).foldl noteReady s

/-! ### Steps 1 to 4 of R21 -/

def State.bumpGen (s : State) (page : Nat) : State :=
  { s with cfgGen := FMap.set 0 s.cfgGen page (FMap.get 0 s.cfgGen page + 1) }

/-- STREAM_CONSUMED and the log's consumed count: every pending shadow of their pages at once (R280, Table 15.5). -/
def applyConsumedAll (s : State) : State :=
  let pend := s.rings.filter fun kv => kv.2.shadow.isSome
  let s1 := pend.foldl (fun (s : State) (kv : Nat × Ring) =>
    match kv.2.shadow with
    | some v => applyConsumed s (kv.1 / 32) (kv.1 % 32) v
    | none => s) s
  let s2 := if pend.isEmpty then s1 else s1.bumpGen pageSig
  match s2.house.log.shadow with
  | none => s2
  | some v =>
    let g := s2.house.log
    let g1 := if decide ((g.produced - v).toNat ≤ 2 ^ (max 4 (min 16 g.log2size))) then { g with consumed := v, shadow := none }
              else { g with shadow := none }
    ({ s2 with house := { s2.house with log := g1 } }).bumpGen pageRnd

/-- Step 1: pending RWS shadows. -/
def applyShadows (s : State) (p : Nat) : State :=
  let P := s.part p
  let s1 := match P.specShadow with
    | some v => (s.setPart p { P with spec := v, specShadow := none }).bumpGen (pagePrt + p)
    | none => s
  applyConsumedAll (s1.mapPart p fun P => { P with asked := false })

/-- The lowest position that no step closed so far appends for a row: of an entry whose notices are all judged, the positions of the tokens
delivered count, since later steps append the others again (R349; log entry 85). -/
def switchPos (P : Partition) (r : Nat) (x : Row) : Nat :=
  if x.state == 3 || x.state == 4 then x.nextPos
  else
    let judged := match x.judge with
      | some j => if x.notices = 0 then 0 else j.b + j.drafts.length
      | none => 0
    (P.riding r).foldl (fun m e => max m (if e.kind = 2 then e.tok + e.nPos else e.tok - 1 + e.nPos)) (max x.closedTo judged)

/-- The STEP policy moves every accepted row that is not DONE, EXPORTED or FREE (R349). -/
def moveRows (s : State) (p old new : Nat) : State :=
  (s.rowsOf p).foldl (fun (s : State) (kv : Nat × Row) =>
    if kv.2.active then s.setRow kv.1 { kv.2 with weightGen := new, oldGen := some (old, switchPos (s.part p) kv.1 kv.2) } else s) s

/-- Step 2, weights: a verified generation whose step has come switches (R347). -/
def switchCopy (s : State) (p : Nat) (copy : Bool) : State :=
  let P := s.part p
  match P.gen copy with
  | none => s
  | some g =>
    if g.ready && !g.switched && decide (g.switchAt ≤ P.stepNo) then
      let old := P.currentGen
      let P1 := match old with
        | some (c, o) => P.setGen c (some { o with current := false })
        | none => P
      let P2 := { P1.setGen copy (some { g with switched := true, current := true }) with policy := g.policy }
      let s1 := ((s.setPart p P2).countPart p ctrGenSwitch 1).raiseRnd g.window 5 true
      let s2 := if g.late then s1.raiseRnd g.window 7 true else s1
      match old with
      | some (_, o) => if g.policy then moveRows s2 p o.no g.no else s2
      | none => s2
    else s

/-- Step 2, adapters: a retired slot's generations are resident no longer, then a verified one switches (R357, R359). -/
def switchSlot (s : State) (p j : Nat) : State :=
  let one := fun (s : State) (copy : Bool) =>
    let x := (s.part p).slot j
    match x.gen copy with
    | some g =>
      if g.ready && !g.switched && !g.dead then
        let x1 := match x.gen (!copy) with
          | some o => x.setGen (!copy) (some { o with current := false })
          | none => x
        let x2 := { x1.setGen copy (some { g with switched := true, current := true }) with retired := false }
        ((s.mapPart p fun P => P.setSlot j x2).countPart p ctrAdapterSwitch 1).raiseRnd g.window 8 true
      else s
    | none => s
  let off := fun (g : SlotGen) => { g with current := false }
  let s1 := s.mapPart p fun P =>
    let x := P.slot j
    if x.retiring then P.setSlot j { x with retiring := false, retired := true, copy0 := x.copy0.map off, copy1 := x.copy1.map off } else P
  one (one s1 false) true

def switchAll (s : State) (p : Nat) : State :=
  let s1 := switchCopy (switchCopy s p false) p true
  let s2 := ((s1.part p).slots.map (·.1)).foldl (fun s j => switchSlot s p j) s1
  retireAll s2 p

/-- Step 3: a cancelled row drains; its cancel point is LAST_SEQ; a working draft gets an END (R284). -/
def cancelRow (s : State) (r : Nat) : State :=
  let x := s.row r
  if !x.cancel then s
  else if !x.active || x.state == 6 then s.setRow r { x with cancel := false }
  else
    let s1 := if x.specOn && x.working.isSome then
        sendSpec s x.part 0 3 { k := 0, mainRow := r, draftRow := (x.draftRow.extractLsb' 0 13).toNat, b := 0, tokens := [] }
      else s
    let s2 := s1.setRow r { x with state := 6, cancel := false, cancelAt := x.lastSeq, hold := none, finish := none, since := none,
                                   asked := none, working := none, rebuild := [], lostPages := [] }
    if (s2.part x.part).inFlight r then s2 else complete s2 r 3

/-- A withdrawal returns the row to FILLING (Table 8.7). -/
def withdrawRow (s : State) (r : Nat) : State :=
  s.mapRow r fun x => if x.withdraw && x.state == 2 then { x with state := 1, withdraw := false } else x

/-- An import row with every prompt page present, and a draft row with no chunks, enter RUNNING (R271, R285). -/
def toRunning (s : State) (r : Nat) : State :=
  let x := s.row r
  let pl := x.promptLen.toNat
  if importReady s r x then
    allocTo (s.setRow r { x with state := 5, slots := min x.slots 2, closedTo := pl - 1 }) r (pl - 1)
  else if x.state == 3 && x.draft && pl ≤ x.nextPos + 1 then
    allocTo (s.setRow r { x with state := 5, slots := min x.slots 2 }) r (x.reach x.fed)
  else if (x.state == 3 || x.state == 4) && x.isExport && x.exportsLeft = 0 && pl ≤ x.nextPos + 1 then complete s r 5
  else s

/-- Attached pages of an export row ship at its acceptance: the whole ones are full already, and with no chunk to come the tail page has
all its positions (R277, R327). -/
def shipAttached (s : State) (r : Nat) : State :=
  let x := s.row r
  let m := x.closedTo
  if x.state == 3 && x.isExport then exportPages s r 0 (if x.promptLen.toNat = m + 1 then cdiv m 64 else m / 64) else s

/-- Steps 1 to 4 of R21, withdrawals before acceptances. -/
def boundaryHead (s : State) (p : Nat) : State :=
  let s1 := switchAll (applyShadows s p) p
  let rows := (s1.rowsOf p).map (·.1)
  -- the accepted rows of a partition that has halted safe keep their states (R412, R413)
  let keep := (s.part p).rstate == 3
  let s2 := if keep then s1 else rows.foldl cancelRow s1
  let s3 := rows.foldl withdrawRow s2
  let s4 := (considered s3 p).foldl (fun s r => shipAttached (considerRow s r) r) s3
  let s5 := if keep then s4 else rows.foldl toRunning s4
  -- pages that found no slot at an earlier close (R507)
  noteReady (rows.foldl retryRow s5) p

/-! ### Step 5: the manifest (R268, R274, Table 8.10) -/

/-- The row entry of a ride. -/
def entryOf (P : Partition) (r : Nat) (x : Row) (v : Ride) (block : Nat) : Entry :=
  { row := r, reqSeed := if v.rebuild && decide (v.tok < x.attached) then x.pfxSeed else x.reqSeed, tok := v.tok, slot := slotCopy P x, copy := weightCopy P x v.first v.rebuild, kind := v.kind,
    nPos := v.n, pageRoot := x.pageRoot, pageVersion := x.pages.version, beta := x.invTemp, topP := x.topP,
    greedy := x.ctrl.getLsbD 23,
    last := (v.kind == 0 && v.tok + 1 == x.maxLen.toNat) ||
            (v.kind == 2 && !v.rebuild && x.isExport && v.top + 2 == x.promptLen.toNat),
    bucket := v.bucket, block := block,
    tokens := if v.kind = 2 then [] else ((x.log.map (·.1)).getD (v.tok - 1) 0) :: v.drafts,
    rebuild := v.rebuild, draining := x.state == 6 }

/-- The ids of a chunk's positions, 256 words (Table 8.10). -/
def chunkBlock (x : Row) (v : Ride) : List Word :=
  let ids := ((x.log.drop v.tok).take v.n).map (·.1)
  ids ++ List.replicate (256 - ids.length) 0

/-- The chosen rides of a step and its bucket; none when nothing can ride (R274). Rebuild entries go before ordinary chunks
(R420). Decode, verify and chunk entries together are at most 8 (Table 8.9); where more could ride, overdue rows keep their places first,
in rank order, then decode and verify entries, then chunks (R272, R291; DESIGN CHOICE, log entry 115). -/
def choose (s : State) (p : Nat) : Option (Nat × List ((Nat × Row) × Ride) × List ((Nat × Row) × Ride)) :=
  let P := s.part p
  let ranked := sortBy (fun a b => before s.ns a.1 b.1) (readyRows s p)
  let gen := ranked.filter fun a => a.2.kind != 2
  let ch := (ranked.filter fun a => a.2.kind == 2 && a.2.rebuild) ++ ranked.filter fun a => a.2.kind == 2 && !a.2.rebuild
  let b := match gen, ch with
    | g :: _, _ => some g.2.bucket
    | [], c :: _ => some c.2.bucket
    | [], [] => none
  match b with
  | none => none
  | some b =>
    let gs0 := (gen.filter fun a => a.2.bucket == b).take P.rowsMax
    let cs0 := (ch.filter fun a => decide (a.2.bucket ≤ b)).take P.chunksMax
    let late := fun (a : (Nat × Row) × Ride) => (a.1.2.late s.ns).isSome
    let kept := ((sortBy (fun a b => before s.ns a.1 b.1) ((gs0 ++ cs0).filter late) ++
      gs0.filter (fun a => !late a) ++ cs0.filter fun a => !late a).take 8).map fun a => a.1.1
    let gs := (gs0.filter fun a => kept.contains a.1.1).take 8
    let cs := (cs0.filter fun a => kept.contains a.1.1).take (8 - gs.length)
    if gs.isEmpty && cs.isEmpty then none else some (b, gs, cs)

/-- What closing the manifest does to a row that rides: its wait ends, its state follows, its next pages are allocated (R272,
R276, R305). -/
def rideOn (s : State) (r : Nat) (v : Ride) : State :=
  let x := s.row r
  let pl := x.promptLen.toNat
  let x0 := { x with since := none, overdue := false }
  if v.rebuild then
    let rest := match x.rebuild with
      | (a, b) :: t => if a + v.n ≤ b then (a + v.n, b) :: t else t
      | [] => []
    s.setRow r { x0 with rebuild := rest, closedTo := max x.closedTo (v.top + 1) }
  else if v.kind = 2 && x.state == 5 then
    allocTo (s.setRow r { x0 with fed := v.tok + v.n, closedTo := max x.closedTo (v.tok + v.n),
                                  want := match x.want with
                                    | some (b, 0, m) => if b ≤ v.tok + v.n then none else some (b, 0, m)
                                    | w => w }) r (x.reach (v.top + 1))
  else if v.kind = 2 then
    let lastChunk := v.top + 2 = pl
    let st := if lastChunk && !x.isExport then 5 else 4
    let x1 := { x0 with nextPos := v.top + 1, closedTo := v.top + 1, state := st,
                        slots := if st = 5 then min x.slots 2 else x.slots }
    let top := if lastChunk then (if x.isExport then v.top else if x.draft then x.reach (pl - 1) else pl - 1) else chunkTop (v.top + 1) pl
    allocTo (s.setRow r x1) r top
  else
    allocTo (s.setRow r { x0 with
      state := 5
      slots := min x.slots 2
      closedTo := v.tok
      fed := v.tok
      prop := none
      waited := false
      entryTok := v.tok
      notices := v.n
      judge := if v.kind = 1 || (x.waited && (x.prop.getD []).isEmpty) then some { b := v.tok, drafts := v.drafts } else none }) r
      (x.reach v.tok)

/-- Rows held back by a full ring at this boundary: STREAM_STALL once for each, STREAM_STALL_STEPS once for the boundary (R281). -/
def stallRows (s : State) (p : Nat) : State :=
  let held := (s.rowsOf p).filter fun kv => kv.2.hold.isSome && kv.2.state == 5 && !kv.2.draft
  if held.isEmpty then s
  else held.foldl (fun (s : State) (kv : Nat × Row) =>
    if kv.2.stalled then s else (s.setRow kv.1 { kv.2 with stalled := true }).raiseSig kv.2.owner 4) (s.countPart p ctrStall 1)

/-- Closes the manifest of the chosen rides. -/
def closeManifest (s : State) (p b : Nat) (gs cs : List ((Nat × Row) × Ride)) : State :=
  let P := s.part p
  let es := gs.map fun a => entryOf P a.1.1 a.1.2 a.2 0
  let ces := (cs.zip (List.range cs.length)).map fun ai => entryOf P ai.1.1.1 ai.1.1.2 ai.1.2 ai.2
  let m : Manifest := { step := P.stepNo, close := s.ns, bucket := b, first := P.firstAfter, entries := es ++ ces,
                        chunks := cs.map fun a => chunkBlock a.1.2 a.2 }
  let P1 := { P.count ctrSteps 1 with
    stepNo := P.stepNo + 1
    inflight := P.inflight ++ [{ man := m }]
    firstAfter := false
    spacing := P.stepInterval }
  let log := m.entries.map fun e => ({ part := p, step := P.stepNo, close := s.ns, copy := e.copy, slot := e.slot, row := e.row } : Carried)
  let s1 := { s.setPart p P1 with house := { s.house with carried := s.house.carried ++ log } }
  (gs ++ cs).foldl (fun (s : State) (a : (Nat × Row) × Ride) => rideOn s a.1.1 a.2) s1

/-- A re-issued step waits for the rebuild of a row that it carries (R420). -/
def waitsRebuild (s : State) (x : StepRun) : Bool :=
  x.man.entries.any fun e => !e.rebuild && (!(s.row e.row).rebuild.isEmpty || !(s.row e.row).lostPages.isEmpty)

/-- A partition closes manifests: loaded, running, the step interval past, and no re-issue outstanding but those that wait for
rebuilds, which ride in new manifests (R24, R402, R406, R420). -/
def closes (s : State) (p : Nat) : Bool :=
  let P := s.part p
  P.loaded && P.rstate == 0 && !P.frozen && !P.quarantine && P.spacing == 0 &&
  (match P.inflight.find? fun x => x.again && !x.sent with
    | some x => waitsRebuild s x
    | none => true)

/-- A partition held for recovery runs no boundaries (R267). -/
def Partition.runsBoundary (P : Partition) : Bool := P.rstate == 0 || P.rstate == 3

def execStepBoundary (p : PartId) (s : State) : Out :=
  if !(s.part p.val).runsBoundary then .next s
  else
    let s1 := boundaryHead s p.val
    if !closes s1 p.val then .next s1
    else
      let s2 := stallRows s1 p.val
      match choose s2 p.val with
      | some (b, gs, cs) => .next (noteReady (closeManifest s2 p.val b gs cs) p.val)
      | none => .next s2

def execIdleBoundary (p : PartId) (s : State) : Out :=
  .next (if (s.part p.val).runsBoundary then boundaryHead s p.val else s)

/-! ### Sending a manifest (R268–R270) -/

/-- Table 8.9. -/
def Manifest.bodyLen (m : Manifest) : Nat := 3 * m.entries.length + 32 * m.chunks.length
def Manifest.header (m : Manifest) : List Byte :=
  padTo 64 (bytesLE 8 m.step ++ bytesLE 8 m.close ++ bytesLE 2 m.entries.length ++ bytesLE 2 m.chunks.length ++
    bytesLE 4 m.bodyLen ++ bytesLE 1 m.bucket ++ bytesLE 1 (if m.first then 1 else 0))

/-- Table 8.10. -/
def Entry.bytes (e : Entry) : List Byte :=
  let slotWord := match e.slot with
    | some (j, c) => j + (if c then 1024 else 0)
    | none => 2 ^ 31
  bytesLE 4 e.reqSeed.toNat ++ bytesLE 4 e.tok ++ bytesLE 2 e.row ++ List.replicate 6 0 ++ bytesLE 4 slotWord ++
  bytesLE 1 (if e.copy then 1 else 0) ++ bytesLE 1 e.kind ++ bytesLE 2 e.nPos ++ bytesLE 4 e.pageRoot.toNat ++
  bytesLE 4 e.pageVersion.toNat ++ bytesLE 4 e.beta.toNat ++ bytesLE 2 e.topP.toNat ++
  bytesLE 1 ((if e.greedy then 1 else 0) + (if e.last then 2 else 0) + (if e.draining then 4 else 0)) ++ bytesLE 1 e.bucket ++ bytesLE 4 e.block ++
  padTo 36 (e.tokens.flatMap fun t => bytesLE 4 t.toNat) ++ List.replicate 16 0

def Manifest.body (m : Manifest) : List Byte :=
  m.entries.flatMap Entry.bytes ++ m.chunks.flatMap fun c => c.flatMap fun t => bytesLE 4 t.toNat

/-- Granules of a byte string. -/
def granulesOf : Nat → List Byte → List Granule
  | 0, _ => []
  | fuel + 1, bs => if bs.isEmpty then [] else BitVec.ofNat 256 (natLE (bs.take 32)) :: granulesOf fuel (bs.drop 32)

/-- Payload flits of two granules. -/
def pairs : List Granule → List (List Granule)
  | a :: b :: rest => [a, b] :: pairs rest
  | [a] => [[a]]
  | [] => []

/-- The flits of one body copy on the flow channel. -/
def copyFlits (t : TileAddr) (gs : List Granule) : List (Chan × Flit) :=
  (.flow, { src := .signalBox, dst := t, body := .sendHead 0 gs.length }) ::
  (pairs gs).map fun q => (.flow, { src := .signalBox, dst := t, body := .payload q })

/-- Tiles of the Embedding record, in its order (Table 7.9). -/
def Partition.embedding (P : Partition) : List TileAddr :=
  P.service.flatMap fun
    | .embedding ts => ts.filterMap fun w => tileAt w.toNat
    | _ => []

/-- The first step not sent that is not a re-issue. -/
def nextNew : List StepRun → Option (Nat × StepRun)
  | [] => none
  | x :: xs => if x.sent || x.again then (nextNew xs).map fun y => (y.1 + 1, y.2) else some (0, x)

/-- The step that would be sent next: the first not sent since the last start. A re-issued one waits, and the re-issues behind it,
until every replacement is written and every row it carries has its rebuild done; the steps that rebuild them go first (R406, R419,
R420; log entry 56). -/
def nextUnsent (s : State) (p : Nat) : List StepRun → Option (Nat × StepRun)
  | [] => none
  | x :: xs =>
    if x.sent then (nextUnsent s p xs).map fun y => (y.1 + 1, y.2)
    else if x.again && ((s.rowsOf p).any (fun kv => kv.2.state != 9 && kv.2.pages.acks != 0) || waitsRebuild s x) then
      (nextNew xs).map fun y => (y.1 + 1, y.2)
    else some (0, x)

/-- With a step credit the body goes to the entry tile and the embedding tiles, one copy after another, then the notice. In an exact-mode
partition successive steps are an interval apart, re-issued ones too (R24). -/
def execManifestSend (p : PartId) (s : State) : Out :=
  let P := s.part p.val
  if P.credits = 0 || P.rstate != 0 || P.frozen || P.sendGap != 0 then .next s
  else match nextUnsent s p.val P.inflight with
    | none => .next s
    | some (i, x) =>
      let gs := granulesOf x.man.body.length x.man.body
      let hd := granulesOf 64 x.man.header
      let copies := (P.entry :: P.embedding).flatMap fun t => copyFlits t gs
      let notice : Chan × Flit :=
        (.mgmt, { src := .signalBox, dst := P.entry, body := .step (hd.getD 0 0) (hd.getD 1 0) })
      let P1 := { P with
        credits := P.credits - 1
        sendGap := P.stepInterval
        inflight := P.inflight.set i { x with sent := true }
        rimOut := P.rimOut ++ copies ++ [notice] }
      .next (s.setPart p.val (if x.again then P1.count ctrReread 1 else P1))

/-! ### What comes back through the gate -/

def Flit.isCredit (c : Nat) (f : Flit) : Bool :=
  match f.body with
  | .credit i _ => i == c
  | _ => false

/-- A credit flit with idx 15: at most two step credits are held (R270). -/
def execStepCredit (p : PartId) (s : State) : Out :=
  let P := s.part p.val
  match pickRim (Flit.isCredit 15) P.rimIn with
  | some (f, rest) =>
    match f.body with
    | .credit _ n => .next (s.setPart p.val { P with rimIn := rest, credits := min 2 (P.credits + n) })
    | _ => .next s
  | none => .next s

/-- PAGE_REBUILT for the pages of a rebuild entry whose step has left, and their count (R322). -/
def countRebuilt (s : State) (p : Nat) (e : Entry) : State :=
  if !e.rebuild then s
  else
    let x := s.row e.row
    let done := x.lostPages.filter fun lk => decide (e.tok / 64 ≤ lk.2) && decide (lk.2 ≤ (e.tok + e.nPos - 1) / 64) &&
      x.rebuild.all fun ab => decide (64 * lk.2 + 63 < ab.1) || decide (ab.2 < 64 * lk.2)
    if done.isEmpty then s
    else
      let s1 := (s.setRow e.row { x with lostPages := x.lostPages.filter fun lk => !done.contains lk }).countPart p ctrRebuild
        done.length
      let s2 := s1.raiseKvp x.owner 4
      if x.owner = 0 then s2 else s2.raiseKvp 0 4

/-- A row whose step has left: held replacements are written, a draining row completes, a release is acted on, the last chunk's
tail page ships (R284, R288, R313, R327). -/
def rowStepLeft (s : State) (p r : Nat) : State :=
  let s1 := writeHeld s r
  let x := s1.row r
  if (s1.part p).inFlight r then s1
  else if x.state == 6 then complete s1 r 3
  else if x.releasing then freeRow s1 r
  else if x.state == 4 && x.isExport && x.promptLen.toNat ≤ x.nextPos + 1 && (x.promptLen.toNat - 1) % 64 != 0 then
    exportPages s1 r ((x.promptLen.toNat - 1) / 64) ((x.promptLen.toNat - 1) / 64 + 1)
  else s1

/-- The steps in flight without the oldest one sent, and that one. -/
def retireOldest : List StepRun → Option (StepRun × List StepRun)
  | [] => none
  | x :: xs => if x.sent then some (x, xs) else (retireOldest xs).map fun y => (y.1, x :: y.2)

/-- A credit flit with idx 14: the oldest step sent leaves the pipeline (R403; log entry 56). -/
def execRetireCredit (p : PartId) (s : State) : Out :=
  let P := s.part p.val
  match pickRim (Flit.isCredit 14) P.rimIn with
  | none => .next s
  | some (_, rest) =>
    match retireOldest P.inflight with
    | none => .next (s.setPart p.val { P with rimIn := rest })
    | some (x, xs) =>
      let P1 := { P with rimIn := rest, inflight := xs, streak := if P.streakStep = 0 || P.streakStep = x.man.step then 0 else P.streak }
      let s1 := s.setPart p.val P1
      let s2 := x.man.entries.foldl (fun (s : State) (e : Entry) => countRebuilt s p.val e) s1
      let s3 := ((x.man.entries.map (·.row)).eraseDups).foldl (fun s r => rowStepLeft s p.val r) s2
      .next (noteReady (retireAll s3 p.val) p.val)

def Flit.isPageFull (f : Flit) : Bool :=
  match f.body with
  | .pageFull _ _ => true
  | _ => false

/-- The page that a page-full notice stands for: the lowest FILLING one of the row and layer whose last position a closed
manifest has appended (R312). -/
def noticePage (s : State) (r l : Nat) : Option (Nat × Tent) :=
  let x := s.row r
  let P := s.part x.part
  let es := FMap.get [] x.pages.tables l
  ((List.range es.length).zip es).find? fun kt =>
    decide (64 * kt.1 + 64 ≤ x.closedTo) && (match P.page kt.2.page with
      | some i => i.st == .filling
      | none => false)

/-- Page k of a layer becomes FULL, its slot is given back, a seal and any export are queued (R312). -/
def fillPage (s : State) (r l k : Nat) (t : Tent) : State :=
  let x := s.row r
  let s1 := s.mapPart x.part fun P =>
    let P1 := freePageSlot P t.page
    match P1.page t.page with
    | some i => P1.setPage t.page (some { i with st := .full })
    | none => P1
  let s2 := replaceEntry s1 r l k { t with sealed_ := true, resume := false, fill := 0 }
  if x.isExport && x.active then exportPage s2 r l k else s2

/-- A page-full notice for a row and a layer (R312). -/
def pageFull (s : State) (r l : Nat) : State :=
  match noticePage s r l with
  | none => s
  | some (k, t) => fillPage s r l k t

def execPageFullNotice (p : PartId) (s : State) : Out :=
  let P := s.part p.val
  match pickRim Flit.isPageFull P.rimIn with
  | some (f, rest) =>
    match f.body with
    | .pageFull row layer => .next (pageFull (s.setPart p.val { P with rimIn := rest }) row layer)
    | _ => .next s
  | none => .next s

/-- The oldest acknowledgement of a page line reaches the rim (R302). -/
def execTableWriteAck (p : PartId) (s : State) : Out :=
  let P := s.part p.val
  match P.lineAcks with
  | [] => .next s
  | who :: rest =>
    let s1 := s.setPart p.val { P with lineAcks := rest }
    if who < 8192 then
      .next (noteReady (s1.mapRow who fun x => { x with pages := { x.pages with acks := x.pages.acks - 1 } }) p.val)
    else if landMark 0 ≤ who then .next (noteReady (landed s1 p.val (who - landMark 0)) p.val)
    else
      let h := who - 8192
      let s2 := s1.setHandle h { s1.handle h with pages := { (s1.handle h).pages with acks := (s1.handle h).pages.acks - 1 } }
      .next (if (s2.handle h).pages.acks = 0 then kvWritten s2 h else s2)

end Sys2Proof.Machine
end

