-- ==== Sys2Proof/Machine/Hold.lean ====
section
/-! DEFINITION. Lateness and the hold network, barriers, the gating stager, and one clk of a tile (R120, R199, R207–R223, R236). -/
namespace Sys2Proof.Machine

/-- Serial comparison of two 32-bit counters: a is not ahead of b (R213). -/
def notAhead (a b : Word) : Bool := !serialGt a b

/-- A lateness that a tile of the partition has had reaches the root, which keeps the maximum (R213, R215, R216; log entry 20). A tile of a
lost region is in no tree (R418). -/
def execHoldRootMaximum (p : PartId) (t : TileAddr) (l : Word) (s : State) : Out :=
  let P := s.part p.val
  if (s.tile t).part = some p && (s.region (regionOf t)).lostBy = 0 && notAhead l (s.tile t).late && serialGt l P.rootMax then
    .next (s.setPart p.val { P with rootMax := l, holdClk := P.holdClk + ((l - P.rootMax).setWidth 64) })
  else .next s

/-- A maximum that the root has driven reaches the tile (R213, R216). -/
def execHoldMaxArrival (t : TileAddr) (m : Word) (s : State) : Out :=
  if (s.tile t).part.isSome && notAhead m (s.partOf t).rootMax && serialGt m (s.tile t).maxIn then
    .next (s.mapTile t fun T => { T with maxIn := m })
  else .next s

/-- The clk of a HOLDREQ have run out (R141). -/
def execHoldreqEnd (t : TileAddr) (s : State) : Out :=
  if (s.tile t).holdreqOn && (s.tile t).holdreq == 0 then
    .next (s.mapTile t fun T => { T with holdreqOn := false, holdOut := false })
  else .next s

/-- Members of a barrier of a partition: its tiles in service (R140). A tile of a lost region is none (R419). -/
def barMembers (s : State) (p : PartId) (b : Nat) : List Tile :=
  (s.tiles.map (·.2)).filter fun T => T.part == some p && T.inService && T.barMember.getLsbD b

/-- Once every member holds one sense, the root copies it into the release sense (R211). -/
def execBarrierRootUpdate (p : PartId) (b : Fin 32) (s : State) : Out :=
  let P := s.part p.val
  let ms := barMembers s p b.val
  let bit : Word := BitVec.ofNat 32 (2 ^ b.val)
  if ms.isEmpty then .next s
  else if ms.all (fun T => T.barSense.getLsbD b.val) then .next (s.setPart p.val { P with release := P.release ||| bit })
  else if ms.all (fun T => !T.barSense.getLsbD b.val) then .next (s.setPart p.val { P with release := P.release &&& ~~~bit })
  else .next s

/-- A transition whose last step was granted 6 clk ago is complete: the tile has left, or has entered, its sleep (R208). -/
def stagerClose (s : State) (r : Nat) : State :=
  let R := s.region r
  let s1 := match R.exits with
    | t :: rest =>
      let T := s.tile t
      if T.nap.steps = 0 then (s.setRegion r { R with exits := rest }).setTile t (napFinish (s.partOf t).exact T) else s
    | [] => s
  let R1 := s1.region r
  match R1.entries with
  | t :: rest =>
    let T := s1.tile t
    if 16 ≤ T.nap.steps then
      (s1.setRegion r { R1 with entries := rest }).setTile t { T with nap := { T.nap with rest := .asleep } }
    else s1
  | [] => s1

/-- The region's gating stager grants one step, 6 clk after the one before: exits before entries, one tile through before the next
(R207–R209). -/
def execStagerStep (r : RegionId) (s : State) : Out :=
  if (s.region r.val).gap ≠ 0 then .next s
  else
    let s := stagerClose s r.val
    let R := s.region r.val
    let step := fun (t : TileAddr) (n : Nat) =>
      let T := s.tile t
      .next ((s.setRegion r.val { R with gap := 6 }).setTile t { T with nap := { T.nap with steps := n } })
    match R.exits with
    | t :: _ => step t ((s.tile t).nap.steps - 1)
    | [] =>
      match R.entries with
      | t :: _ => step t ((s.tile t).nap.steps + 1)
      | [] => .next s

/-- The limit of a SLEEP or SPIN has passed: SPIN finishes, SLEEP asks for its exit (R137, R209). -/
def execSleepLimitExpire (t : TileAddr) (s : State) : Out :=
  let T := s.tile t
  if T.nap.limit = 0 || T.nap.clk < T.nap.limit then .next s
  else match T.nap.rest with
    | .spin => .next (s.setTile t (napFinish (s.partOf t).exact T))
    | .entering | .asleep =>
      let r := regionOf t
      let R := s.region r
      let s1 := s.setRegion r { R with entries := R.entries.filter (· != t)
                                       exits := if T.nap.steps = 0 then R.exits else R.exits ++ [t] }
      if T.nap.steps = 0 then .next (s1.setTile t (napFinish (s.partOf t).exact T))
      else .next (s1.setTile t { T with nap := { T.nap with rest := .leaving } })
    | _ => .next s

/-- Partition start reaches the tile: index 0, schedule clock 0, first due value plan[0] (R113, R236, R239). -/
def execPartitionStartArrival (t : TileAddr) (s : State) : Out :=
  if (s.tile t).starting then
    .next (s.mapTile t fun T =>
      { T with starting := false, halted := false, pc := 0, sigma := 0, due := (T.plan.getD 0 0).toNat })
  else .next s

/-! ### One clk of a tile -/

/-- TILE_STAT.sleeping: from the first entry step until the exit is complete (R209). -/
def Tile.sleeping (T : Tile) : Bool :=
  T.nap.rest == .asleep || T.nap.rest == .leaving || (T.nap.rest == .entering && T.nap.steps != 0)

/-- On own stall in this clk (Table 6.2). -/
def Tile.ownStall (T : Tile) : Bool := T.slip || T.ladder != 0 || T.holdreq != 0

/-- The instruction at the check stage of an exact-mode tile has reached its due clk (R236). -/
def Tile.atDue (T : Tile) : Bool := !T.halted && !T.starting && T.nap.rest == .awake && decide (T.due ≤ T.sigma)

/-- Lateness, schedule clock and their counters in one clk (R213, R214, R236, R237). A ladder clk that falls into a held one is spent with
it. `due`: an exact-mode instruction that may issue in this clk waits for its command: σ stands at its due value, so that it issues in
exactly that clk (DESIGN CHOICE, log entry 71). -/
def clkLateness (isHeld frozen due : Bool) (T : Tile) : Tile :=
  if frozen then T.count ctrHoldIn 1
  else if isHeld then { T.count ctrHoldIn 1 with late := T.late + 1, ladder := T.ladder - 1 }
  else if due && T.ladder == 0 && T.holdreq == 0 then { T with holdOut := false }
  else if T.ownStall then
    let T1 := { T.count ctrHoldOut 1 with late := T.late + 1, holdOut := true, ladder := T.ladder - 1 }
    if T.slip then T1.count ctrSlipClk 1 else T1
  else { T with holdOut := false, sigma := T.sigma + 1 }

/-- Check-stage wait counters; a held clk, or one in which the instruction may issue, is counted in none (R199). -/
def clkWait (isHeld : Bool) (T : Tile) : Tile :=
  if isHeld then T
  else match waitCtr T.wait with
    | some off => T.count off 1
    | none => T

/-- HOLDREQ durations advance in every clk (R120, R141); SLEEP and SPIN limits only in unheld ones (R120). -/
def clkTimers (isHeld : Bool) (T : Tile) : Tile :=
  let T1 := if T.holdreq = 0 then T else { T.count ctrHoldreqClk 1 with holdreq := T.holdreq - 1 }
  let T2 := if isHeld || T.nap.rest == .awake || T.nap.rest == .leaving then T1
            else { T1 with nap := { T1.nap with clk := T1.nap.clk + 1 } }
  if T.sleeping then T2.count ctrSleep 1 else T2

/-- Waiting clk of the router, the ports and the descriptor queue (R56, R57, R188, R192, R220, R229). -/
def clkQueues (T : Tile) : Tile :=
  let T1 := { T with ages := T.fifo.foldl (fun (a : FMap Nat) (kv : Nat × List Flit) =>
      if kv.2.isEmpty then a else FMap.set 0 a kv.1 (FMap.get 0 a kv.1 + 1)) T.ages }
  let T2 := { T1 with starve := if T.lowWaits then T.starve + 1 else 0
                      bankStarve := if T.flushWaits then
                          (List.range 16).foldl (fun (m : FMap Nat) b => FMap.set 0 m b (FMap.get 0 m b + 1)) T.bankStarve
                        else [] }
  let T3 := if T.flushWaits && T.writing != some .queue then T2.count ctrFlushWait 1 else T2
  let full := fun c => match T.descPayload c with
    | some (_, _, gs) => decide (32 < T.descQ.length + gs.length)
    | none => false
  let T4 := if full .sched || full .flow then T3.count ctrDescWait 1 else T3
  if T.skid.length = 256 then T4.count ctrSkidFull 1 else T4

/-- The front of a unit's queue begins its next line or group (R162). -/
def beginFront : List AOp → List AOp
  | [] => []
  | o :: q => { o with begun := true } :: q

/-- What the units start in one clk: the column a line; a row-engine form that reads the latch or a buffer, and the vector unit, their next
line or group. Nothing under a hold (R61, R162). An ADAPT of no adapter leaves the scoreboard (R167). -/
def clkUnits (isHeld : Bool) (T : Tile) : Tile :=
  let T1 := startLine isHeld { T with sb := T.sb.filter fun e => !e.brief }
  if isHeld then T1 else { T1 with rowQ := beginFront T1.rowQ, vecQ := beginFront T1.vecQ }

/-- One clk of a tile of a running partition. -/
def clkTile (P : Partition) (due : Bool) (T : Tile) : Tile :=
  let h := serialGt T.maxIn T.late || P.frozen
  clkQueues (clkUnits h (clkTimers h (clkWait (h || due) (clkLateness h P.frozen due T))))

end Sys2Proof.Machine
end

