-- ==== Sys2Proof/Machine/RowEngine.lean ====
section
/-! DEFINITION. The row-engine instructions MATV, MATM, ADAPT, KDOT, VACC (R163–R172) and the line that the row engine applies
(R39–R42, R79–R81, R95, R96). -/
namespace Sys2Proof.Machine

/-! ### Activation blocks (R71–R74) -/

/-- A block as the row engine reads it; `bad` contributes nothing and raises FMT_RESERVED, and so does `badA8`, a block of form A8 whose scale
code is 0xFF, which still takes form A8's clk (R67, Table 3.9). -/
inductive ABlock where
  | bad
  | badA8
  | a4 (e : Int) (codes : List Int) (outs : List (Nat × Fl))
  | a8 (e : Int) (codes : List Int)
  | w16 (vals : List Fl)
  deriving DecidableEq, Repr

/-- The 32 W16 values of the two granules of spill slot `slot`. -/
def spillVals (T : Tile) (spill slot : Nat) : List Fl :=
  (List.range 32).map fun e => Fl.decode 7 (T.padNat (spill + 2 * slot) (2 * e) 2)

/-- Two's complement byte. -/
def sbyte (b : Byte) : Int := b.toInt

/-- Block `i`, with code 0 at the positions that its side list names (Table 3.6, log entry 50), of the triple whose areas start at granules `code`, `head`, `spill`, `n` blocks in all. -/
def readBlock (T : Tile) (code head spill n i : Nat) : ABlock :=
  let h := T.padNat head (4 * i) 4
  let form := h / 256 % 4
  let nOut := h / 1024 % 4
  let slot := h / 65536
  let scale := h % 256
  let cs := T.padBytes (code + i) 0 32
  if form = 3 || nOut = 3 then .bad
  else if form = 2 then (if n ≤ slot then .bad else .w16 (spillVals T spill slot))
  else if scale = 0xFF then (if form = 1 then .badA8 else .bad)
  else
    let e := Int.ofNat scale - 127
    if form = 0 then
      let outs := (List.range nOut).map fun o =>
        ((cs.getD (20 + o) 0).toNat % 32,
         Fl.decode 7 ((cs.getD (16 + 2 * o) 0).toNat + 256 * (cs.getD (17 + 2 * o) 0).toNat))
      .a4 e ((List.range 32).map fun k => if outs.any (·.1 == k) then 0 else nibAt cs 0 k) outs
    else .a8 e (cs.map sbyte)

/-! ### Contributions (Table 3.6) -/

/-- What one row adds: integers with exponents, and whether a NaN or infinity sets inv. -/
structure Contribs where
  terms : List (Int × Int) := []
  inv   : Bool := false
  evts  : BitVec 4 := 0
  deriving DecidableEq, Repr

def Contribs.join (a b : Contribs) : Contribs :=
  { terms := a.terms ++ b.terms, inv := a.inv || b.inv, evts := a.evts ||| b.evts }

/-- A weight code times a W16 value. -/
def wideTerm (ew w : Int) (v : Fl) : Contribs :=
  match v with
  | .fin n m e => { terms := [(w * (if n then -(Int.ofNat m) else Int.ofNat m), ew + e)] }
  | .zero _ => {}
  | _ => { inv := true, evts := evInvalid }

def sumProducts : List Int → List Int → Int
  | a :: as, b :: bs => a * b + sumProducts as bs
  | _, _ => 0

/-- 32 weight codes of exponent `ew` against a block. -/
def blockContribs (ew : Int) (ws : List Int) : ABlock → Contribs
  | .bad | .badA8 => { evts := evFmtReserved }
  | .a4 e cs outs =>
    outs.foldl (fun c o => c.join (wideTerm ew (ws.getD o.1 0) o.2)) { terms := [(sumProducts ws cs, ew + e)] }
  | .a8 e cs =>
    { terms := [(sumProducts ws (cs.map (· / 16)), ew + e + 4), (sumProducts ws (cs.map (· % 16)), ew + e)] }
  | .w16 vs => (ws.zip vs).foldl (fun c wv => c.join (wideTerm ew wv.1 wv.2)) {}

/-- One value code `c` of exponent `ew` against element `i` of a probability block (R170). -/
def elemContribs (ew c : Int) (i : Nat) : ABlock → Contribs
  | .bad | .badA8 => { evts := evFmtReserved }
  | .a4 e cs outs =>
    outs.foldl (fun k o => if o.1 = i then k.join (wideTerm ew c o.2) else k) { terms := [(c * cs.getD i 0, ew + e)] }
  | .a8 e cs => { terms := [(c * (cs.getD i 0 / 16), ew + e + 4), (c * (cs.getD i 0 % 16), ew + e)] }
  | .w16 vs => wideTerm ew c (vs.getD i (.zero false))

/-- The two nibbles of 8-bit codes: each code takes two lane products (Table 5.4), which keeps every contribution below 2^12 (R79). -/
def hiCodes (ws : List Int) : List Int := ws.map (· / 16)
def loCodes (ws : List Int) : List Int := ws.map (· % 16)

/-- 32 key codes of 8 bits against a block. The low products of an A8 block are summed in two halves, since 32 of them reach 2^12
(log entry 73). -/
def wideContribs (ew : Int) (ws : List Int) (b : ABlock) : Contribs :=
  let lo := loCodes ws
  (blockContribs (ew + 4) (hiCodes ws) b).join (match b with
    | .a8 e cs =>
      let al := cs.map (· % 16)
      { terms := [(sumProducts lo (cs.map (· / 16)), ew + e + 4), (sumProducts (lo.take 16) (al.take 16), ew + e),
                  (sumProducts (lo.drop 16) (al.drop 16), ew + e)] }
    | b => blockContribs ew lo b)

/-- One value code of 8 bits against element `i` of a block. -/
def wideElem (ew c : Int) (i : Nat) (b : ABlock) : Contribs :=
  (elemContribs (ew + 4) (c / 16) i b).join (elemContribs ew (c % 16) i b)

/-- A row whose scale code is 0xFF contributes zero and raises FMT_RESERVED (R67); a NaN or infinity of the block it meets then sets no
inv (DESIGN CHOICE, log entry 106: R80 has such an element set inv, R67 has every product of the row zero). -/
def scaled (code : Byte) (g : Int → Contribs) : Contribs :=
  if code = 0xFF then { evts := evFmtReserved } else g (Int.ofNat code.toNat - 127)

/-- Adds a row's contributions to one accumulator (R80). -/
def Acc.addAll (a : Acc) (c : Contribs) : Acc × BitVec 4 :=
  c.terms.foldl (fun r t => let x := r.1.addContribution t.1 t.2 35
                            (x.1, r.2 ||| x.2)) ({ a with inv := a.inv || c.inv }, c.evts)

/-- Adds to accumulator `n` of the tile. -/
def Tile.addTo (T : Tile) (n : Nat) (c : Contribs) : Tile × BitVec 4 :=
  let r := (T.acc n).addAll c
  (T.setAcc n r.1, r.2)

/-! ### Row-engine operations -/

def opMatv : Nat := 0x80
def opMatm : Nat := 0x81
def opKdot : Nat := 0x84
def opVacc : Nat := 0x85
def opAdapt : Nat := 0x86

/-- Suffix bits of an operation. -/
def AOp.sfxBit (o : AOp) (n : Nat) : Bool := o.f.sfx.getLsbD n
/-- .L2. -/
def AOp.isL2 (o : AOp) : Bool := o.f.sfx.toNat % 4 == 2
/-- Activation rows: imm[3:0] for MATM, KDOT and VACC, else 1. -/
def AOp.rows (o : AOp) : Nat := if o.op = opMatv || o.op = opAdapt then 1 else o.f.imm.toNat % 16
/-- .LT. -/
def AOp.fromLatch (o : AOp) : Bool := o.op == opMatm && o.sfxBit 3
/-- .P. -/
def AOp.fromBuffer (o : AOp) : Bool := (o.op == opKdot || o.op == opVacc) && o.sfxBit 1
/-- .A8. -/
def AOp.a8 (o : AOp) : Bool := o.sfxBit 2
/-- 8-bit keys or values. -/
def AOp.wideKv (o : AOp) : Bool := o.sfxBit 0

/-- Rows of the batch select both copies (R157, R163). -/
def mixedCopies (mask : Word) (r : Nat) : Bool :=
  (List.range r).any (fun i => mask.getLsbD i) && (List.range r).any (fun i => !mask.getLsbD i)

def AOp.mixed (o : AOp) : Bool := o.op == opMatm && !o.fromLatch && mixedCopies o.sy o.rows

/-- Codes of row `r` (of 32, block `h` of the line) and its scale byte, with FMT_RESERVED for L2 code 0b10 (R69, R70). -/
def weightRow (l2 : Bool) (ln : Line) (r h : Nat) : List Int × Byte × BitVec 4 :=
  if l2 then
    let cs := (List.range 32).map fun k =>
      let e := 32 * h + k
      (ln.data.getD (16 * r + e / 4) 0).toNat / 2 ^ (2 * (e % 4)) % 4
    (cs.map (fun c => if c = 1 then 1 else if c = 3 then -1 else 0), ln.side.getD (2 * r + h) 0,
     if cs.any (· == 2) then evFmtReserved else 0)
  else ((List.range 32).map (nibAt ln.data (16 * r)), ln.side.getD r 0, 0)

/-- A 4-bit or 8-bit key or value row of a line (R168). -/
def kvRow (wide : Bool) (ln : Line) (p : Nat) : List Int :=
  if wide then (List.range 32).map (fun e => sbyte (ln.data.getD (32 * p + e) 0))
  else (List.range 32).map (nibAt ln.data (16 * p))

/-- Reads block `i` of the operation's triple. -/
def AOp.block (o : AOp) (T : Tile) (i : Nat) : ABlock := readBlock T o.b.lo o.b1.lo o.b2.lo o.b.n i

/-- Accumulates over a list of updates, joining their events. -/
def applyAll {α : Type} (g : Tile → α → Tile × BitVec 4) (T : Tile) (xs : List α) : Tile × BitVec 4 :=
  xs.foldl (fun r x => let y := g r.1 x
                       (y.1, r.2 ||| y.2)) (T, 0)

/-- MATV, MATM, ADAPT: line `j` of `n` applied to activation row `i` (R163). -/
def weightLine (o : AOp) (ln : Line) (n j i : Nat) (T : Tile) : Tile × BitVec 4 :=
  let bpl := if o.isL2 then 2 else 1
  let blocks := (List.range bpl).map fun h => (h, o.block T (i * bpl * n + bpl * j + h))
  applyAll (fun T row =>
    let cs := blocks.foldl (fun c hb =>
      let w := weightRow o.isL2 ln row hb.1
      let k := scaled w.2.1 fun ew => blockContribs ew w.1 hb.2
      c.join { k with evts := k.evts ||| w.2.2 }) ({} : Contribs)
    T.addTo (o.d.lo + 64 * i + row) cs) T (List.range 64)

/-- KDOT: key line `j` applied to query row `i` (R169). -/
def keyLine (o : AOp) (ln : Line) (j i : Nat) (T : Tile) : Tile × BitVec 4 :=
  let per := if o.wideKv then 2 else 1
  let L := o.total
  let blk := o.block T (i * (L / per) + j / per)
  applyAll (fun T p =>
    let pos := if o.wideKv then p + 32 * (j % 2) else p
    T.addTo (o.d.lo + 64 * i + pos) (scaled (ln.side.getD p 0) fun ew =>
      if o.wideKv then wideContribs ew (kvRow true ln p) blk else blockContribs ew (kvRow false ln p) blk))
    T (List.range (if o.wideKv then 32 else 64))

/-- VACC: value line `j` weighted for row `i` (R170). -/
def valueLine (o : AOp) (ln : Line) (j i : Nat) (T : Tile) : Tile × BitVec 4 :=
  let per := if o.wideKv then 2 else 1
  let nd := o.total / per
  let db := j / per
  let b0 := o.block T (2 * i)
  let b1 := o.block T (2 * i + 1)
  applyAll (fun T p =>
    let pos := if o.wideKv then p + 32 * (j % 2) else p
    let blk := if pos < 32 then b0 else b1
    let row := kvRow o.wideKv ln p
    applyAll (fun T d =>
      T.addTo (o.d.lo + 32 * (i * nd + db) + d)
        (scaled (ln.side.getD p 0) fun ev =>
          if o.wideKv then wideElem ev (row.getD d 0) (pos % 32) blk else elemContribs ev (row.getD d 0) (pos % 32) blk))
      T (List.range 32))
    T (List.range (if o.wideKv then 32 else 64))

/-- Row-engine clk of one block beyond its rung-0 cost (R95, R165). In 3100 mode only a W16 block of a NaN or an infinity costs any
(R104). -/
def blockExtra (m3100 a8 : Bool) : ABlock → Nat
  | .a8 _ _ | .badA8 => if a8 || m3100 then 0 else 1
  | .w16 vs => if m3100 && vs.all (·.isFinite) then 0 else if a8 then 1 else 2
  | _ => 0

/-- The blocks that line `j` meets in row `i`. -/
def lineBlocks (o : AOp) (T : Tile) (n j i : Nat) : List ABlock :=
  if o.op = opKdot then [o.block T (i * (o.total / (if o.wideKv then 2 else 1)) + j / (if o.wideKv then 2 else 1))]
  else if o.op = opVacc then
    if o.wideKv then [o.block T (2 * i + j % 2)] else [o.block T (2 * i), o.block T (2 * i + 1)]
  else
    let bpl := if o.isL2 then 2 else 1
    (List.range bpl).map fun h => o.block T (i * bpl * n + bpl * j + h)

/-- Extra clk of line `j` over rows `is`; a buffer image costs at least 3 clk, which absorbs some (R165). -/
def lineExtra (m3100 : Bool) (o : AOp) (T : Tile) (n j : Nat) (is : List Nat) : Nat :=
  let extra := (is.map fun i => ((lineBlocks o T n j i).map (blockExtra m3100 o.a8)).foldl max 0).foldl (· + ·) 0
  let base := is.length * (if o.a8 then 2 else 1)
  if o.fromBuffer then max (base + extra) 3 - max base 3 else extra

/-- Applies line `j` to one row. -/
def applyLine (o : AOp) (ln : Line) (n j i : Nat) (T : Tile) : Tile × BitVec 4 :=
  if o.op = opKdot then keyLine o ln j i T
  else if o.op = opVacc then valueLine o ln j i T
  else weightLine o ln n j i T

/-- Line image `j` of a Platform buffer (R190), whose side bytes 64–127 are zero as in a page line (R296, log entry 51). -/
def bufferLine (T : Tile) (base j : Nat) : Line :=
  { data := T.padBytes (base + 34 * j) 0 1024, side := T.padBytes (base + 34 * j + 32) 0 64 ++ List.replicate 64 0 }

/-- The operation's line number, its rows, and whether the line stays in the latch, at its step `done` (R163). MATM.LT meets one row of
its batch in a step, since a hold stops it between rows (Table 5.8). -/
def AOp.stepOf (o : AOp) : Nat × List Nat × Bool :=
  if o.fromLatch then (0, [o.done], true)
  else if o.mixed then
    let c := o.done % 2 == 1
    (o.done / 2, (List.range o.rows).filter (fun i => o.sy.getLsbD i == c), o.sy.getLsbD (o.rows - 1) == c)
  else (o.done, List.range o.rows, true)

/-- Whether the instruction leaves its lines in the latch (R163, R164, R172). -/
def AOp.latches (o : AOp) : Bool := o.op == opMatm || o.op == opKdot || o.op == opVacc

/-- Lines of the operation as weights per row count: half the steps when both copies are read, one for the latch. -/
def AOp.lineCount (o : AOp) : Nat := if o.fromLatch then 1 else if o.mixed then o.total / 2 else o.total

/-- The line that the operation takes next, with the tile that it is taken from: from the latch, the Platform buffer, or the
lines that have reached the row engine. -/
def takeLine (T : Tile) (o : AOp) : Option (Line × Tile) :=
  if o.fromLatch then some (T.latch, T)
  else if o.fromBuffer then some (bufferLine T o.a.lo o.done, T)
  else match T.lineBuf with
    | x :: rest => if x.id = o.id then some (x.line, { T with lineBuf := rest }) else none
    | [] => none

/-- The front operation may pass its next line: every earlier STC.M is done (R119), and under a hold only a line that has begun passes:
one that the column has delivered, or one of the latch or a buffer that an unheld clk has begun (R61, R162). -/
def Tile.rowReady (T : Tile) (isHeld : Bool) : Bool :=
  match T.rowQ with
  | [] => false
  | o :: _ => T.inOrder o.id && (!isHeld || o.begun || !(o.fromLatch || o.fromBuffer))

/-- One line passes the row engine. -/
def rowLine (s : State) (t : TileAddr) : State :=
  let T := s.tile t
  match T.rowQ with
  | [] => s
  | o :: rest =>
    match takeLine T o with
    | none => s
    | some (ln, T1) =>
      let st := o.stepOf
      let extra := lineExtra (s.partOf t).arith3100 o T1 o.lineCount st.1 st.2.1
      let r := applyAll (fun T i => applyLine o ln o.lineCount st.1 i T) T1 st.2.1
      let o' := { o with done := o.done + 1, begun := false, evts := o.evts ||| r.2 }
      let T2 := if o.latches && st.2.2 then { r.1 with latch := ln } else r.1
      let T3 := if o'.done < o.total then { T2 with rowQ := o' :: rest } else { T2.release o.id with rowQ := rest }
      spendLadder (raiseArith (s.setTile t T3) t o.evts r.2) t extra

def execRowEngineLine (v : Visit) (s : State) : Out :=
  let s' := s.noted v.tile v.note
  if (s.tile v.tile).rowReady (held s v.tile) then .next (rowLine s' v.tile) else .next s

/-! ### Issue -/

/-- Enters the row engine queue, and the read queue when it reads the column. -/
def effRow (t : TileAddr) (o : AOp) (s : State) : State :=
  s.mapTile t fun T =>
    { T with
      rowQ := T.rowQ ++ [o]
      readQ := if o.lines.isEmpty then T.readQ else T.readQ ++ [{ id := o.id, lines := o.lines, use := .rowEngine }] }

/-- Exactly 64 × r accumulators (R163, R169). -/
def accsFlt (T : Tile) (k n : Nat) : Flt := rangeUnless ((T.areg k).inAccs && (T.areg k).n == n) k

/-- R157: a weight pair in the column, of equal lengths. -/
def weightFlt (T : Tile) (k : Nat) : Flt :=
  firstFlt [pairFlt T k, rangeUnless (T.areg k).inColumn k,
    rangeUnless ((T.areg (k + 1)).inColumn && (T.areg (k + 1)).n == (T.areg k).n) (k + 1)]

/-- The weight range that the scoreboard entry records (R157). -/
def weightRange (T : Tile) (k : Nat) (mask : Word) (r : Nat) : Range :=
  if mixedCopies mask r then (T.areg k).hull (T.areg (k + 1))
  else if mask.getLsbD 0 then T.areg (k + 1) else T.areg k

/-- The column lines read, in order: both copies of each line when the rows select both (R163). -/
def weightLines (T : Tile) (k : Nat) (mask : Word) (r : Nat) : List Nat :=
  if mixedCopies mask r then
    (List.range (T.areg k).n).flatMap fun j => [(T.areg k).lo + j, (T.areg (k + 1)).lo + j]
  else (weightRange T k mask r).units

def bplOf (f : FmtA) : Nat := if f.sfx.toNat % 4 = 2 then 2 else 1

/-- MATV and MATM over `r` rows (R163), MATM.LT over the latch (R164). MATM.LT, whose copy mask is ignored, still waits for a pending write
of s[sy] (DESIGN CHOICE, log entry 106: R118 has an instruction wait for each scalar it names, R164 says only that the mask is ignored). -/
def specMat (T : Tile) (f : FmtA) (matm : Bool) : IssueSpec :=
  let r := if matm then f.imm.toNat % 16 else 1
  let lt := matm && f.sfx.getLsbD 3
  let k := f.as_.toNat
  let n := if lt then 1 else (T.areg k).n
  { needs := [f.sy.toNat]
    fault := firstFlt [illegalUnless (1 ≤ r && r ≤ 8), rangesOk T [f.ad.toNat], if lt then none else weightFlt T k,
      tripleFlt T f.at_.toNat, accsFlt T f.ad.toNat (64 * r), tripleLens T f.at_.toNat (r * bplOf f * n)]
    reads := (if lt then [] else [weightRange T k (T.sreg f.sy.toNat) r]) ++ [tripleHull T f.at_.toNat]
    writes := [T.areg f.ad.toNat]
    rdLatch := lt, wrLatch := matm && !lt
    entry := some .arith, own := rowFull T (!lt) }

/-- The row operation of a word over the given lines. -/
def rowOp (T : Tile) (op : Nat) (f : FmtA) (lines : List Nat) (total : Nat) : AOp :=
  { vecOp T op f total with lines := lines }

def execMatv (t : TileAddr) (f : FmtA) (s : State) : Out :=
  let T := s.tile t
  let ls := weightLines T f.as_.toNat (T.sreg f.sy.toNat) 1
  .next (seqStep s t (f.word 0x80) (specMat T f false) (effRow t (rowOp T opMatv f ls ls.length)))

def execMatm (t : TileAddr) (f : FmtA) (s : State) : Out :=
  let T := s.tile t
  let ls := if f.sfx.getLsbD 3 then [] else weightLines T f.as_.toNat (T.sreg f.sy.toNat) (f.imm.toNat % 16)
  let n := if f.sfx.getLsbD 3 then f.imm.toNat % 16 else ls.length
  .next (seqStep s t (f.word 0x81) (specMat T f true) (effRow t (rowOp T opMatm f ls n)))

/-- ADAPT's first line: as.base + S × (2 × slot + copy) (R167). -/
def adaptFirst (T : Tile) (f : FmtA) : Nat :=
  let w := T.sreg f.sy.toNat
  (T.areg f.as_.toNat).lo + f.imm.toNat % 2 ^ 14 * (2 * (w.toNat % 1024) + (w.extractLsb' 10 1).toNat)

/-- The slot word says that the row has no adapter. -/
def adaptNone (T : Tile) (f : FmtA) : Bool := (T.sreg f.sy.toNat).getLsbD 31

/-- ADAPT (R167). Without an adapter it passes the same checks but for the bound on the selected lines, of which there are none, and its
entry is released 1 clk after issue. -/
def specAdapt (T : Tile) (f : FmtA) : IssueSpec :=
  let a := T.areg f.as_.toNat
  let none_ := adaptNone T f
  { needs := [f.sy.toNat]
    fault := firstFlt [rangesOk T [f.ad.toNat, f.as_.toNat], rangeUnless a.inColumn f.as_.toNat,
      tripleFlt T f.at_.toNat, accsFlt T f.ad.toNat 64, tripleLens T f.at_.toNat (bplOf f * a.n),
      rangeUnless (none_ || adaptFirst T f + a.n ≤ 8192) f.as_.toNat]
    reads := (if none_ then [] else [columnRange (adaptFirst T f) a.n]) ++ [tripleHull T f.at_.toNat]
    writes := [T.areg f.ad.toNat]
    entry := some .arith, brief := none_, own := rowFull T true }

def execAdapt (t : TileAddr) (f : FmtA) (s : State) : Out :=
  let T := s.tile t
  let n := (T.areg f.as_.toNat).n
  let ls := List.range' (adaptFirst T f) n
  .next (seqStep s t (f.word 0x86) (specAdapt T f)
    (if adaptNone T f then id else effRow t (rowOp T opAdapt f ls n)))

/-- Lines or images that KDOT and VACC take (R169–R171). -/
def kvLines (T : Tile) (f : FmtA) : Nat :=
  if f.sfx.getLsbD 1 then (T.areg f.as_.toNat).n / 34 else (T.areg f.as_.toNat).n

/-- KDOT and VACC: `blocks` of the triple and `accs` accumulators for r rows, L lines and L / per dimension blocks. -/
def specKv (T : Tile) (f : FmtA) (blocks accs : Nat → Nat → Nat) : IssueSpec :=
  let r := f.imm.toNat % 16
  let p := f.sfx.getLsbD 1
  let per := if f.sfx.getLsbD 0 then 2 else 1
  let a := T.areg f.as_.toNat
  let L := kvLines T f
  { fault := firstFlt [illegalUnless (1 ≤ r && r ≤ 8), rangesOk T [f.ad.toNat, f.as_.toNat], tripleFlt T f.at_.toNat,
      rangeUnless (if p then a.inPad && a.n % 34 == 0 else a.inColumn) f.as_.toNat, rangeUnless (L % per == 0) f.as_.toNat,
      accsFlt T f.ad.toNat (accs r (L / per)), tripleLens T f.at_.toNat (blocks r (L / per))]
    reads := [a, tripleHull T f.at_.toNat], writes := [T.areg f.ad.toNat]
    wrLatch := true, entry := some .arith, own := rowFull T (!p) }

def kvOp (T : Tile) (op : Nat) (f : FmtA) : AOp :=
  rowOp T op f (if f.sfx.getLsbD 1 then [] else (T.areg f.as_.toNat).units) (kvLines T f)

def specKdot (T : Tile) (f : FmtA) : IssueSpec := specKv T f (fun r nd => r * nd) (fun r _ => 64 * r)

def execKdot (t : TileAddr) (f : FmtA) (s : State) : Out :=
  .next (seqStep s t (f.word 0x84) (specKdot (s.tile t) f) (effRow t (kvOp (s.tile t) opKdot f)))

def specVacc (T : Tile) (f : FmtA) : IssueSpec := specKv T f (fun r _ => 2 * r) (fun r nd => 32 * r * nd)

def execVacc (t : TileAddr) (f : FmtA) (s : State) : Out :=
  .next (seqStep s t (f.word 0x85) (specVacc (s.tile t) f) (effRow t (kvOp (s.tile t) opVacc f)))

end Sys2Proof.Machine
end

