-- ==== Sys2Proof/Machine/Vector.lean ====
section
/-! DEFINITION. The vector-unit instructions ACCZ to SAMPLE and PLAT (R158–R161, R173–R186, R190, R191) and one group of them. -/
namespace Sys2Proof.Machine

/-! ### Draws (R85–R90, R159) -/

/-- What a drawing instruction draws with; `on` is false without .SR and in 3100 mode (R86). -/
structure DrawEnv where
  on    : Bool
  seed  : DWord
  layer : Nat
  site  : Nat
  first : Word
  group : Nat
  ctx   : List (Word × Word)
  deriving DecidableEq, Repr

/-- Row context entry i: req_seed and tok (Table 5.3). -/
def ctxEntry (T : Tile) (base i : Nat) : Word × Word :=
  (wordLE (T.padBytes base (16 * i) 4), wordLE (T.padBytes base (16 * i + 4) 4))

/-- The word u of output element j (R159); sites 0x0 and 0xE give 0 (Table 3.8). -/
def DrawEnv.word (v : DrawEnv) (j : Nat) : Word :=
  if v.site = 0 || v.site = 14 then 0
  else
    let c := v.ctx.getD (j / v.group) (0, 0)
    keyedWord v.seed c.1 c.2 v.layer v.site (v.first + BitVec.ofNat 32 (j % v.group))

/-- The rounding mode of output element j (R84–R86). -/
def DrawEnv.mode (v : DrawEnv) (j : Nat) : Rnd := if v.on then .sr ((v.word j).toNat / 2 ^ 16) else .rne

/-- FMT_RESERVED of a draw with a reserved site; a representable value draws nothing (R85). -/
def DrawEnv.evt (v : DrawEnv) (exact : Bool) : BitVec 4 :=
  if v.on && !exact && (v.site == 0 || v.site == 14) then evFmtReserved else 0

/-- The draw of ACCOUT, QACT and CVT over `n` elements. The row context is read at the start of each group, also where the destination covers
it: the spec names no fault for that (DESIGN CHOICE, log entry 106). -/
def drawEnv (s : State) (t : TileAddr) (o : AOp) (sr : Bool) (n : Nat) : DrawEnv :=
  let T := s.tile t
  let P := s.partOf t
  let r := drawRows o.f.imm
  { on := sr && !P.arith3100, seed := P.seed, layer := drawLayer o.f.imm, site := drawSite o.f.imm, first := o.sx
    group := n / r, ctx := if sr then (List.range r).map (ctxEntry T o.b.lo) else [] }

/-- A magnitude that fits p + 1 significant bits. -/
def fitsMag (p m : Nat) : Bool := m == 0 || ilog2 m ≤ p || m % 2 ^ (ilog2 m - p) == 0

/-- An exact value i × 2^e that is an integer. -/
def fitsInt (m : Nat) (e : Int) : Bool := decide (0 ≤ e) || m % 2 ^ (-e).toNat == 0

/-! ### Element formats of the vector instructions: suffix [1:0] is 0 .W16, 1 .F32, 2 .I32 -/

def fmtSize (k : Nat) : Nat := if k = 0 then 2 else 4
/-- Fraction bits of W16 and F32. -/
def fmtP (k : Nat) : Nat := if k = 0 then 7 else 23
def AOp.fmt (o : AOp) : Nat := o.f.sfx.toNat % 4
/-- Elements of size `n` bytes in a range. -/
def Range.elems (r : Range) (n : Nat) : Nat := 32 * r.n / n
/-- Element j of a range. -/
def elemAt (T : Tile) (r : Range) (size j : Nat) : Nat := T.padNat r.lo (size * j) size

/-- Indices of group `g` of `n` elements. -/
def groupIdx (n g : Nat) : List Nat := List.range' (64 * g) (min 64 (n - 64 * g))

/-- Maps the elements of a group to bits and events, and writes them in one run. -/
def writeGroup (T : Tile) (d : Range) (size n g : Nat) (val : Nat → Nat × BitVec 4) : Tile × BitVec 4 :=
  let vs := (groupIdx n g).map val
  (T.setPad d.lo (size * 64 * g) (vs.flatMap fun v => bytesLE size v.1), vs.foldl (fun e v => e ||| v.2) 0)

/-! ### Element-wise instructions (R179, R180) -/

def opVadd : Nat := 0xA2
def opVsub : Nat := 0xA3
def opVmul : Nat := 0xA4
def opVfma : Nat := 0xA5
def opVmax : Nat := 0xA6
def opVexp : Nat := 0xA7
def opVrcp : Nat := 0xA8
def opVrsq : Nat := 0xA9
def opVsumx : Nat := 0xAA
def opVsel : Nat := 0xAB
def opSmax : Nat := 0xAC
def opSample : Nat := 0xAD
def opTopk : Nat := 0xAE
def opAccz : Nat := 0x82
def opAccout : Nat := 0x83
def opQact : Nat := 0xA0
def opCvt : Nat := 0xA1
def opPlat : Nat := 0x62
def opCopy : Nat := 0x46

/-- INT32 lanes wrap modulo 2^32 (R77, R179). -/
def intLane (op : Nat) (a b d : Nat) : Nat :=
  let x : Word := BitVec.ofNat 32 a
  let y : Word := BitVec.ofNat 32 b
  let z : Word := BitVec.ofNat 32 d
  (if op = opVadd then x + y
   else if op = opVsub then x - y
   else if op = opVmul then x * y
   else if op = opVfma then x * y + z
   else if x.slt y then y else x).toNat

/-- W16 and F32 lanes. -/
def flLane (op p : Nat) (a b d : Fl) : Fl × BitVec 4 :=
  let fin := a.isFinite && b.isFinite
  if op = opVadd then let r := a.add p b; (r, evtOf fin r)
  else if op = opVsub then let r := a.add p b.negate; (r, evtOf fin r)
  else if op = opVmul then let r := a.mul p b; (r, evtOf fin r)
  else if op = opVfma then let r := a.fma p b d; (r, evtOf (fin && d.isFinite) r)
  else (a.max b, 0)

/-- VSEL and VSEL.M on the bits of a lane. The element chosen is read and written as R76 has every W16 and F32 value read and written: a NaN
comes out canonical, an exponent field of zero as a zero of its sign (R179). -/
def selLane (fmt : Nat) (mask : Bool) (a b d : Nat) : Nat :=
  if mask then
    let lt := if fmt = 2 then (BitVec.ofNat 32 a).slt (BitVec.ofNat 32 b)
              else (Fl.decode (fmtP fmt) a).lt (Fl.decode (fmtP fmt) b)
    if lt then 2 ^ (8 * fmtSize fmt) - 1 else 0
  else
    let x := if d ≠ 0 then a else b
    if fmt = 2 then x else (Fl.decode (fmtP fmt) x).encode (fmtP fmt)

/-- One lane of VADD, VSUB, VMUL, VFMA, VMAX or VSEL. -/
def lane (op fmt : Nat) (bit3 : Bool) (a b d : Nat) : Nat × BitVec 4 :=
  if op = opVsel then (selLane fmt bit3 a b d, 0)
  else if fmt = 2 then (intLane op a b d, 0)
  else
    let p := fmtP fmt
    let r := flLane op p (Fl.decode p a) (Fl.decode p b) (Fl.decode p d)
    (r.1.encode p, r.2)

def elementGroup (o : AOp) (g : Nat) (T : Tile) : Tile × BitVec 4 :=
  let size := fmtSize o.fmt
  let bc := o.sfxBit 2
  writeGroup T o.d size (o.d.elems size) g fun j =>
    lane o.op o.fmt (o.sfxBit 3) (elemAt T o.a size j) (elemAt T o.b size (if bc then 0 else j)) (elemAt T o.d size j)

/-- VMAX.R: element 0 of the destination granule is the maximum, the others zero. -/
def maxReduce (o : AOp) (T : Tile) : Tile × BitVec 4 :=
  let size := fmtSize o.fmt
  let xs := (List.range (o.a.elems size)).map (elemAt T o.a size)
  let m := match xs with
    | [] => 0
    | x :: rest => rest.foldl (fun acc y => (lane opVmax o.fmt false acc y 0).1) (lane opVmax o.fmt false x x 0).1
  (T.setPad o.d.lo 0 (bytesLE 32 m), 0)

/-! ### VEXP, VRCP, VRSQ (R181) -/

/-- Result and ARITH_INVALID of one lane. -/
def unaryLane (op p : Nat) (v : Fl) : Fl × BitVec 4 :=
  if op = opVexp then let r := v.exp p; (r, evtOf v.isFinite r)
  else if op = opVrcp then let r := v.rcp p; (r, evtOf v.isFinite r)
  else let r := v.rsq p
       (r, match v with
         | .zero _ => evInvalid
         | .fin n _ _ => if n then evInvalid else 0
         | .inf n => if n then evInvalid else 0
         | .nan => 0)

def unaryGroup (o : AOp) (g : Nat) (T : Tile) : Tile × BitVec 4 :=
  let size := fmtSize o.fmt
  let p := fmtP o.fmt
  writeGroup T o.d size (o.d.elems size) g fun j =>
    let r := unaryLane o.op p (Fl.decode p (elemAt T o.a size j))
    (r.1.encode p, r.2)

/-! ### VSUMX (R175, R182) -/

/-- Adds a raw image (Table 5.5); set reserved bits raise FMT_RESERVED and add nothing. -/
def Acc.addImage (a : Acc) (bs : List Byte) : Acc × BitVec 4 :=
  let fl := (bs.getD 13 0).toNat
  if fl / 8 ≠ 0 || bs.getD 14 0 != 0 || bs.getD 15 0 != 0 then (a, evFmtReserved)
  else
    ({ value := a.value + BitVec.ofNat 104 (natLE (bs.take 13))
       hi := a.hi || fl % 2 == 1, lo := a.lo || fl / 2 % 2 == 1, inv := a.inv || fl / 4 % 2 == 1 }, 0)

/-- The image of an accumulator (Table 5.5). -/
def Acc.image (a : Acc) : List Byte :=
  bytesLE 13 a.value.toNat ++
    [BitVec.ofNat 8 ((if a.hi then 1 else 0) + (if a.lo then 2 else 0) + (if a.inv then 4 else 0)), 0, 0]

/-- Entry size of a VSUMX source: 2, 4 or, for .ACC, 16 bytes. -/
def sumSize (fmt : Nat) : Nat := if fmt = 3 then 16 else fmtSize fmt

def sumGroup (o : AOp) (g : Nat) (T : Tile) : Tile × BitVec 4 :=
  let size := sumSize o.fmt
  applyAll (fun T' j =>
    let n := o.d.lo + j % o.d.n
    let r := if o.fmt = 3 then (T'.acc n).addImage (T.padBytes o.a.lo (16 * j) 16)
             else (T'.acc n).addValue (fmtP o.fmt) (Fl.decode (fmtP o.fmt) (elemAt T o.a size j))
    (T'.setAcc n r.1, r.2)) T (groupIdx (o.a.elems size) g)

/-! ### ACCZ and ACCOUT (R173, R174) -/

def zeroAccs (T : Tile) (ns : List Nat) : Tile := ns.foldl (fun T n => T.setAcc n {}) T

def acczGroup (o : AOp) (g : Nat) (T : Tile) : Tile × BitVec 4 :=
  (zeroAccs T ((groupIdx o.d.n g).map (o.d.lo + ·)), 0)

/-- Element bytes of ACCOUT: .W16, .F32, .I32, .ACC. -/
def outSize (fmt : Nat) : Nat := if fmt = 0 then 2 else if fmt = 3 then 16 else 4

/-- sh: signed imm[23:18]. -/
def outShift (f : FmtA) : Int := (f.imm.extractLsb' 18 6).toInt

/-- The bytes and events of accumulator j of ACCOUT. -/
def outElem (env : DrawEnv) (fmt : Nat) (sh : Int) (a : Acc) (j : Nat) : List Byte × BitVec 4 :=
  if fmt = 3 then (a.image, 0)
  else
    let m := a.clamped.1.natAbs
    if fmt = 2 then
      let r := a.readInt sh (env.mode j)
      (bytesLE 4 r.1.toNat, r.2 ||| env.evt (a.inv || fitsInt m (-48 + sh)))
    else
      let r := a.readFl (fmtP fmt) sh (env.mode j)
      (bytesLE (fmtSize fmt) (r.1.encode (fmtP fmt)), r.2 ||| env.evt (a.inv || fitsMag (fmtP fmt) m))

def accoutGroup (env : DrawEnv) (o : AOp) (g : Nat) (T : Tile) : Tile × BitVec 4 :=
  let size := outSize o.fmt
  let js := groupIdx o.a.n g
  let vs := js.map fun j => outElem env o.fmt (outShift o.f) (T.acc (o.a.lo + j)) j
  let T' := T.setPad o.d.lo (size * 64 * g) (vs.flatMap (·.1))
  (if o.sfxBit 3 then zeroAccs T' (js.map (o.a.lo + ·)) else T', vs.foldl (fun e v => e ||| v.2) 0)

/-! ### QACT (R91–R93, R104, R177) -/

/-- What QACT writes for one block: head entry, code granule bytes, spill bytes, events, and its ladder and outlier counts. -/
structure QBlock where
  head   : Nat
  codes  : List Byte
  spill  : List Byte := []
  evts   : BitVec 4 := 0
  a8     : Nat := 0
  w16    : Nat := 0
  outs   : Nat := 0
  deriving DecidableEq, Repr

/-- A block written in W16 form: each element rounded to W16, in spill slot i. Its head entry gets scale byte 0, which Table 3.4 has every
reader ignore (DESIGN CHOICE, log entry 106). -/
def qWide (env : DrawEnv) (i : Nat) (vals : List Fl) (evts : BitVec 4) : QBlock :=
  let rs := (vals.zip (List.range 32)).map fun vj =>
    match vj.1 with
    | .fin n m e =>
      let r := (roundMag 7 (env.mode (32 * i + vj.2)) n m e).settle
      (r, evtOf true r ||| env.evt (fitsMag 7 m))
    | v => (v, 0)
  { head := i * 65536 + 512, codes := List.replicate 32 0
    spill := rs.flatMap fun r => bytesLE 2 (r.1.encode 7)
    evts := rs.foldl (fun e r => e ||| r.2) evts, w16 := 1 }

/-- A block written with codes of one scale; elements listed as outliers get code 0. -/
def qCodes (env : DrawEnv) (i : Nat) (wide : Bool) (e0 : Int) (outs : List Nat) (vals : List Fl) : List Int × Nat × BitVec 4 :=
  let c := clampScale wide e0
  let rs := (vals.zip (List.range 32)).map fun vj =>
    if outs.contains vj.2 then (0, (0 : BitVec 4))
    else (quantCode wide (env.mode (32 * i + vj.2)) c.1 vj.1, env.evt (vj.1.onGrid c.1))
  (rs.map (·.1), scaleCode c.1, rs.foldl (fun e r => e ||| r.2) c.2)

/-- An outlier rounded to W16 to nearest even. -/
def outlierVal : Fl → Fl
  | .fin n m e => (roundMag 7 .rne n m e).settle
  | v => v

/-- QACT on the 32 elements of block i (bits in a format with p fraction bits). -/
def quantBlock (env : DrawEnv) (m3100 toA8 : Bool) (p i : Nat) (bits : List Nat) : QBlock :=
  let vals := bits.map (Fl.decode p)
  if vals.any (fun v => !v.isFinite) then qWide env i vals evInvalid
  else
    let sorted := sortDesc ((bits.map (magKey p)).zip (List.range 32))
    let m1 := (sorted.getD 0 (0, 0)).1
    if toA8 then
      let c := qCodes env i true (if m1 = 0 then 0 else keyX p m1 - 6) [] vals
      { head := 256 + c.2.1, codes := c.1.map (BitVec.ofInt 8), evts := c.2.2 }
    else
      let sh := classify p m3100 sorted
      match sh.form with
      | .w16 => qWide env i vals 0
      | .a8 =>
        let c := qCodes env i true sh.e [] vals
        { head := 256 + c.2.1, codes := c.1.map (BitVec.ofInt 8), evts := c.2.2, a8 := 1 }
      | .a4 =>
        let c := qCodes env i false sh.e sh.outs vals
        let ov := (List.range 2).map fun k => match sh.outs[k]? with
          | some x => (outlierVal (vals.getD x (.zero false)), x)
          | none => (.zero false, 0)
        { head := sh.outs.length * 1024 + c.2.1
          codes := packNibbles c.1 ++ ov.flatMap (fun v => bytesLE 2 (v.1.encode 7)) ++
                   ov.map (fun v => BitVec.ofNat 8 v.2) ++ List.replicate 10 0
          evts := ov.foldl (fun e v => e ||| evtOf true v.1) c.2.2, outs := sh.outs.length }

/-- Writes a quantised block into the triple d, d1, d2 and counts it. -/
def putBlock (o : AOp) (i : Nat) (q : QBlock) (T : Tile) : Tile :=
  let T1 := (T.setPad (o.d.lo + i) 0 q.codes).setPad o.d1.lo (4 * i) (bytesLE 4 q.head)
  let T2 := if q.spill.isEmpty then T1 else T1.setPad (o.d2.lo + 2 * i) 0 q.spill
  ((T2.count ctrLadderA8 q.a8).count ctrLadderW16 q.w16).count ctrOutlier q.outs

/-- One group of QACT. The spec names no fault for a destination triple that overlaps the source: the blocks are read and written one after
the other (DESIGN CHOICE, log entry 106). -/
def qactGroup (env : DrawEnv) (m3100 : Bool) (o : AOp) (g : Nat) (T : Tile) : Tile × BitVec 4 :=
  let fmt := if o.sfxBit 1 then 1 else 0
  let size := fmtSize fmt
  applyAll (fun T' i =>
    let q := quantBlock env m3100 (o.sfxBit 0) (fmtP fmt) i ((List.range 32).map fun e => elemAt T o.a size (32 * i + e))
    (putBlock o i q T', q.evts)) T (List.range' (2 * g) (min 2 (o.d.n - 2 * g)))

/-! ### CVT (R99, R178) -/

/-- Source and destination codes: 0 W16, 1 F32, 2 INT32, 3 activation triple. -/
def cvtFrom (f : FmtA) : Nat := f.idx.toNat % 8
def cvtTo (f : FmtA) : Nat := f.idx.toNat / 8

/-- An element to be converted: an exact finite value, or another one; `narrow` when its block scale lies outside Table 3.2. -/
structure CvtVal where
  v      : Fl
  narrow : Bool := false
  evts   : BitVec 4 := 0
  deriving DecidableEq, Repr

/-- An exact integer times a power of two as a value. -/
def exactFl (i e : Int) : Fl := if i = 0 then .zero false else .fin (decide (i < 0)) i.natAbs e

/-- Element k of a block of a triple (R178); where a side list names an index twice, the first entry's value (DESIGN CHOICE, log
entry 106). -/
def blockElem (b : ABlock) (k : Nat) : CvtVal :=
  match b with
  | .bad | .badA8 => { v := .zero false, evts := evFmtReserved }
  | .a4 e cs outs =>
    match outs.find? (fun x => x.1 == k) with
    | some x => { v := x.2 }
    | none => { v := exactFl (cs.getD k 0) e, narrow := decide (e < -126) || decide (124 < e) }
  | .a8 e cs => { v := exactFl (cs.getD k 0) e, narrow := decide (e < -126) || decide (120 < e) }
  | .w16 vs => { v := vs.getD k (.zero false) }

/-- Element j of the source. -/
def cvtSource (o : AOp) (T : Tile) (j : Nat) : CvtVal :=
  let k := cvtFrom o.f
  if k = 3 then blockElem (readBlock T o.a.lo o.a1.lo o.a2.lo o.a.n (j / 32)) (j % 32)
  else if k = 2 then { v := exactFl (BitVec.ofNat 32 (elemAt T o.a 4 j)).toInt 0 }
  else { v := Fl.decode (fmtP k) (elemAt T o.a (fmtSize k) j) }

/-- Converts to code `to`: bits and events. -/
def cvtElem (env : DrawEnv) (onto j : Nat) (x : CvtVal) : Nat × BitVec 4 :=
  if onto = 2 then
    let r := flToInt32 (env.mode j) x.v
    let exact := match x.v with
      | .fin _ m e => fitsInt m e
      | _ => true
    (r.1.toNat, r.2 ||| x.evts ||| env.evt exact)
  else
    let p := fmtP onto
    match x.v with
    | .fin n m e =>
      let r := (roundMag p (env.mode j) n m e).settle
      let lost := !fitsMag p m || r != (roundMag p .rne n m e)
      (r.encode p, evtOf true r ||| x.evts ||| env.evt (fitsMag p m) ||| (if x.narrow && lost then evQntRange else 0))
    | v => (v.encode p, x.evts)

/-- One group of CVT. R178 names no fault for a destination that partly overlaps the source, and R180 is not CVT's: the groups are read
and written one after the other (DESIGN CHOICE, log entry 106). -/
def cvtGroup (env : DrawEnv) (o : AOp) (g : Nat) (T : Tile) : Tile × BitVec 4 :=
  let onto := cvtTo o.f
  writeGroup T o.d (fmtSize onto) (o.d.elems (fmtSize onto)) g fun j => cvtElem env onto j (cvtSource o T j)

/-! ### SMAX (R183) -/

def smaxElem (o : AOp) (T : Tile) (j : Nat) : Nat × BitVec 4 :=
  if o.sy.toNat ≤ j then (0, 0)
  else
    let p := fmtP o.fmt
    let a := Fl.decode p (elemAt T o.a (fmtSize o.fmt) j)
    let m := Fl.decode p o.top
    let z := a.add 23 m.negate
    let r := z.exp 7
    (r.encode 7, evtOf (a.isFinite && m.isFinite) z ||| evtOf z.isFinite r)

/-- Before its first group SMAX reads its maximum, element 0 of a[at] (R183). -/
def AOp.primed (o : AOp) (T : Tile) : AOp :=
  if o.op = opSmax && o.done == 0 then { o with top := elemAt T o.b (fmtSize o.fmt) 0 } else o

/-- One group of SMAX. The spec names no fault for a destination that partly overlaps the source: the groups are read and written one
after the other (DESIGN CHOICE, log entry 106). -/
def smaxGroup (o : AOp) (g : Nat) (T : Tile) : Tile × BitVec 4 :=
  writeGroup T o.d 2 (o.d.elems 2) g (smaxElem o T)

/-! ### TOPK (R184) -/

/-- A candidate: its value, the bits it came with, and token id. -/
structure Cand where
  val : Fl
  bits : Nat
  tok : Nat
  deriving DecidableEq, Repr

def emptyTok : Nat := 0xFFFFFFFF

/-- a ranks before b: larger value, or equal value and lower id. -/
def Cand.before (a b : Cand) : Bool := b.val.lt a.val || (!a.val.lt b.val && decide (a.tok < b.tok))

def insertCand (x : Cand) : List Cand → List Cand
  | [] => [x]
  | y :: ys => if x.before y then x :: y :: ys else y :: insertCand x ys

/-- Entries of a candidate list (R184). -/
def candList (T : Tile) (r : Range) : List Cand :=
  (List.range (4 * r.n)).map fun i =>
    let v := T.padNat r.lo (8 * i) 4
    { val := Fl.decode 23 v, bits := v, tok := T.padNat r.lo (8 * i + 4) 4 }

/-- The k best candidates, in order. -/
def bestCands (k : Nat) (cs : List Cand) : List Cand := cs.foldl (fun acc c => (insertCand c acc).take k) []

/-- An entry is copied with the bits it came with (log entry 49). -/
def candBytes (c : Cand) : List Byte := bytesLE 4 c.bits ++ bytesLE 4 c.tok
def emptyBytes : List Byte := bytesLE 4 0xFF800000 ++ bytesLE 4 emptyTok

def topkInputs (o : AOp) (T : Tile) : List Cand :=
  (if o.sfxBit 0 then candList T o.a
   else (List.range (o.a.elems 4)).map fun j =>
     let v := elemAt T o.a 4 j
     { val := Fl.decode 23 v, bits := v, tok := (o.sx + BitVec.ofNat 32 j).toNat }) ++ candList T o.b

def topkRun (o : AOp) (T : Tile) : Tile × BitVec 4 :=
  let k := o.f.imm.toNat % 128
  let cs := (topkInputs o T).filter (fun c => c.tok != emptyTok)
  let best := bestCands k (cs.filter (fun c => c.val != .nan))
  let out := best.flatMap candBytes ++ (List.replicate (4 * cdiv k 4 - best.length) emptyBytes).flatten
  (T.setPad o.d.lo 0 out, if cs.any (fun c => c.val == .nan) then evInvalid else 0)

/-! ### SAMPLE (R185, R186) -/

/-- What SAMPLE finds: token, entries kept, the word drawn, and events. -/
structure Sampled where
  tok  : Nat
  kept : Nat
  u    : Word
  evts : BitVec 4
  deriving DecidableEq, Repr

/-- q[i] of an entry other than the best. -/
def sampleWeight (beta : Fl) (best v : Fl) : Nat × BitVec 4 :=
  let z := v.add 23 best.negate
  let y := z.mul 23 beta
  let ez := evtOf (v.isFinite && best.isFinite) z ||| evtOf (z.isFinite && beta.isFinite) y
  match y with
  | .nan => (0, evInvalid)
  | y =>
    match y.exp 23 with
    | .fin n m e => ((roundToInt .rne n m (e + 24)).toNat, ez)
    | _ => (0, ez)

/-- Keeps the shortest prefix whose weight reaches the top-p share (R185). -/
def topP (p Q : Nat) : List (Cand × Nat) → Nat → List (Cand × Nat)
  | [], _ => []
  | x :: xs, cum => if p * Q ≤ 65536 * (cum + x.2) then [x] else x :: topP p Q xs (cum + x.2)

/-- The first entry whose running weight exceeds `t`. -/
def pickAt (t : Nat) : List (Cand × Nat) → Nat → Nat
  | [], _ => emptyTok
  | x :: xs, cum => if t < cum + x.2 then x.1.tok else pickAt t xs (cum + x.2)

/-- SAMPLE over the candidate list (R185); an invalid β raises ARITH_INVALID with .G too (log entry 52), and so does a NaN
value in the list (Table 5.6, log entry 53). -/
def sampleRun (seed : DWord) (ctx : Word × Word) (greedy : Bool) (betaBits : Word) (p : Nat) (all : List Cand) : Sampled :=
  let real := all.filter (fun c => c.tok != emptyTok)
  let list := real.filter (fun c => c.val != .nan)
  let e0 : BitVec 4 := if real.any (fun c => c.val == .nan) then evInvalid else 0
  match list with
  | [] => { tok := emptyTok, kept := 0, u := 0, evts := evInvalid }
  | c :: _ =>
    let ib := ((List.range list.length).zip list).foldl (fun b x => if x.2.before b.2 then x else b) (0, c)
    let best := ib.2
    let beta := Fl.decode 23 betaBits.toNat
    let bad := match beta with
      | .fin n _ _ => n
      | .zero _ => false
      | _ => true
    if greedy || bad then { tok := best.tok, kept := 1, u := 0, evts := if bad then e0 ||| evInvalid else e0 }
    else
      let ws := ((List.range list.length).zip list).map fun ix =>
        let x := ix.2
        if ix.1 = ib.1 then ((x, 2 ^ 24), (0 : BitVec 4)) else
        let w := sampleWeight beta best.val x.val
        ((x, w.1), w.2)
      let evts := ws.foldl (fun e w => e ||| w.2) e0
      let qs := ws.map (·.1)
      let Q := qs.foldl (fun n x => n + x.2) 0
      let kept := if p = 0 then qs else topP p Q qs 0
      let Q' := kept.foldl (fun n x => n + x.2) 0
      let u := keyedWord seed ctx.1 ctx.2 0xFFF 0xF 0
      { tok := pickAt (u.toNat * Q' / 2 ^ 32) kept 0, kept := kept.length, u := u, evts := evts }

/-- The result granule. -/
def sampleBytes (r : Sampled) : List Byte :=
  bytesLE 4 r.tok ++ bytesLE 4 r.kept ++ bytesLE 4 r.u.toNat ++ List.replicate 20 0

/-- The token notice of .OUT (Table 5.6). -/
def tokenBody (T : Tile) (o : AOp) (r : Sampled) : FlitBody :=
  .token (T.padNat o.b.lo 8 2) (T.padNat o.b.lo 4 4) r.tok
    (BitVec.ofNat 8 ((if r.tok = emptyTok then 1 else 0) + (if o.sfxBit 0 then 2 else 0)))

/-! ### PLAT (R94, R190, R191) -/

/-- K/V quantisation of 32 elements: codes, scale code and events (R94). -/
def kvQuant (env : DrawEnv) (wide : Bool) (first : Nat) (bits : List Nat) : List Int × Nat × BitVec 4 :=
  let vals := bits.map (Fl.decode 7)
  let m1 := ((bits.zip vals).map fun b => if b.2.isFinite then magKey 7 b.1 else 0).foldl max 0
  let c := if m1 = 0 then ((0 : Int), (0 : BitVec 4)) else clampScale wide (keyX 7 m1 - (if wide then 6 else 2))
  let lim : Int := if wide then 128 else 8
  let rs := (vals.zip (List.range 32)).map fun vj =>
    match vj.1 with
    | .nan => ((0 : Int), evInvalid)
    | .inf n => (if n then -lim else lim - 1, evInvalid)
    | v => (quantCode wide (env.mode (first + vj.2)) c.1 v, env.evt (v.onGrid c.1))
  (rs.map (·.1), scaleCode c.1, rs.foldl (fun e r => e ||| r.2) c.2)

/-- .K8 and .V8. -/
def platWide (f : FmtA) : Bool := f.sfx.getLsbD 1

def platEnv (s : State) (t : TileAddr) (o : AOp) : DrawEnv :=
  let P := s.partOf t
  { on := o.sfxBit 2 && !P.arith3100, seed := P.seed, layer := o.f.imm.toNat % 4096
    site := if o.sfxBit 0 then 3 else 2, first := o.sx, group := 32 * (o.a.n / 2) , ctx := [ctxEntry (s.tile t) o.b.lo 0] }

def platBlock (env : DrawEnv) (o : AOp) (b : Nat) (T : Tile) : Tile × BitVec 4 :=
  let wide := platWide o.f
  let q := kvQuant env wide (32 * b) ((List.range 32).map fun e => elemAt T o.a 2 (32 * b + e))
  let rho := o.sy.toNat % 64
  let img := if wide then 2 * b + rho / 32 else b
  let slot := if wide then rho % 32 else rho
  let bytes := if wide then q.1.map (BitVec.ofInt 8) else packNibbles q.1
  let base := o.d.lo + 34 * img
  ((T.setPad base ((if wide then 32 else 16) * slot) bytes).setPad (base + 32) slot [BitVec.ofNat 8 q.2.1], q.2.2)

/-- One group of PLAT; a buffer that partly overlaps the source raises no fault: blocks are read and written one after the other (DESIGN
CHOICE, log entry 106). -/
def platGroup (env : DrawEnv) (o : AOp) (g : Nat) (T : Tile) : Tile × BitVec 4 :=
  applyAll (fun T b => platBlock env o b T) T (List.range' (2 * g) (min 2 (o.a.n / 2 - 2 * g)))

/-! ### One group of the instruction in the vector unit (R161) -/

/-- Group g: the tile after it, and the events it raises. -/
def vecGroup (s : State) (t : TileAddr) (o : AOp) (T : Tile) : Tile × BitVec 4 :=
  let g := o.done
  let last := o.total ≤ g + 1
  if o.op = opCopy then (T.setPad o.d.lo (256 * g) (T.padBytes o.a.lo (256 * g) (min 256 (32 * o.a.n - 256 * g))), 0)
  else if o.op = opAccz then acczGroup o g T
  else if o.op = opAccout then accoutGroup (drawEnv s t o (o.sfxBit 2) o.a.n) o g T
  else if o.op = opQact then qactGroup (drawEnv s t o (o.sfxBit 2) (32 * o.d.n)) (s.partOf t).arith3100 o g T
  else if o.op = opCvt then cvtGroup (drawEnv s t o (o.sfxBit 0) (o.d.elems (fmtSize (cvtTo o.f)))) o g T
  else if o.op = opVsumx then sumGroup o g T
  else if o.op = opSmax then smaxGroup o g T
  else if o.op = opPlat then platGroup (platEnv s t o) o g T
  else if o.op = opTopk then (if last then topkRun o T else (T, 0))
  else if o.op = opVmax && o.sfxBit 3 then (if last then maxReduce o T else (T, 0))
  else if o.op = opVexp || o.op = opVrcp || o.op = opVrsq then unaryGroup o g T
  else elementGroup o g T

/-- SAMPLE's result and, with .OUT, its notice. -/
def sampleGroup (s : State) (t : TileAddr) (o : AOp) (T : Tile) : Tile × BitVec 4 :=
  let r := sampleRun (s.partOf t).seed (ctxEntry T o.b.lo 0) (o.sfxBit 0) o.sx (o.sy.toNat % 65536) (candList T o.a)
  let T' := T.setPad o.d.lo 0 (sampleBytes r)
  (if o.sfxBit 1 then T'.notify o.id (rimFlit s t (tokenBody T o r)) else T', r.evts)

/-- A group of the instruction in front completes; the last one releases its entry (R161). -/
def groupDone (s : State) (t : TileAddr) : State :=
  let T := s.tile t
  match T.vecQ with
  | [] => s
  | x :: rest =>
    let o := x.primed T
    let r := if o.op = opSample then sampleGroup s t o T else vecGroup s t o T
    let o' := { o with done := o.done + 1, begun := false, evts := o.evts ||| r.2 }
    let T' := if o'.done < o.total then { r.1 with vecQ := o' :: rest } else { r.1.release o.id with vecQ := rest }
    raiseArith (s.setTile t T') t o.evts r.2

/-- The front instruction may complete its next group: every earlier STC.M is done (R119), and under a hold only a group that an unheld
clk has begun completes (R61, R162). -/
def Tile.vecReady (T : Tile) (isHeld : Bool) : Bool :=
  match T.vecQ with
  | [] => false
  | o :: _ => T.inOrder o.id && (!isHeld || o.begun)

def execVectorGroupDone (v : Visit) (s : State) : Out :=
  let s' := s.noted v.tile v.note
  if (s.tile v.tile).vecReady (held s v.tile) then .next (groupDone s' v.tile) else .next s

/-! ### Issue of the vector instructions -/

/-- Ranges in the scratchpad. -/
def padFlt (T : Tile) (k : Nat) (c : Bool) : Flt := rangeUnless ((T.areg k).inPad && c) k

/-- A vector instruction that holds an arithmetic entry. -/
def vecSpec (T : Tile) (flt : List Flt) (rd wr : List Range) (needs : List Nat) : IssueSpec :=
  { needs := needs, fault := firstFlt flt, reads := rd, writes := wr, entry := some .arith, own := vecFull T }

def specAccz (T : Tile) (f : FmtA) : IssueSpec :=
  let k := f.ad.toNat
  vecSpec T [rangesOk T [k], rangeUnless (T.areg k).inAccs k] [] [T.areg k] []

def execAccz (t : TileAddr) (f : FmtA) (s : State) : Out :=
  let T := s.tile t
  .next (seqStep s t (f.word 0x82) (specAccz T f) (effVec t (vecOp T opAccz f (cdiv (T.areg f.ad.toNat).n 64))))

/-- The draw's own operands: the row context and the scalar of .SR. -/
def drawSpec (T : Tile) (f : FmtA) (sr : Bool) (n : Nat) (p : IssueSpec) : IssueSpec :=
  if sr then
    { p with needs := f.sx.toNat :: p.needs, reads := T.areg f.at_.toNat :: p.reads
             fault := firstFlt [p.fault, drawFlt T f.at_.toNat f.imm n] }
  else p

def specAccout (T : Tile) (f : FmtA) : IssueSpec :=
  let a := T.areg f.as_.toNat
  let d := T.areg f.ad.toNat
  let z := f.sfx.getLsbD 3
  drawSpec T f (f.sfx.getLsbD 2) a.n
    (vecSpec T [rangesOk T [f.ad.toNat, f.as_.toNat], rangeUnless a.inAccs f.as_.toNat,
      padFlt T f.ad.toNat (32 * d.n == a.n * outSize (f.sfx.toNat % 4))]
      [a] (if z then [d, a] else [d]) [])

def execAccout (t : TileAddr) (f : FmtA) (s : State) : Out :=
  let T := s.tile t
  .next (seqStep s t (f.word 0x83) (specAccout T f) (effVec t (vecOp T opAccout f (cdiv (T.areg f.as_.toNat).n 64))))

def specQact (T : Tile) (f : FmtA) : IssueSpec :=
  let a := T.areg f.as_.toNat
  let n := (T.areg f.ad.toNat).n
  drawSpec T f (f.sfx.getLsbD 2) (32 * n)
    (vecSpec T [rangesOk T [f.as_.toNat], tripleFlt T f.ad.toNat, tripleLens T f.ad.toNat n,
      padFlt T f.as_.toNat (a.n == n * (if f.sfx.getLsbD 1 then 4 else 2))] [a] [tripleHull T f.ad.toNat] [])

def execQact (t : TileAddr) (f : FmtA) (s : State) : Out :=
  let T := s.tile t
  .next (seqStep s t (f.word 0xA0) (specQact T f) (effVec t (vecOp T opQact f (cdiv (T.areg f.ad.toNat).n 2))))

/-- Elements of CVT's source. -/
def cvtElems (T : Tile) (f : FmtA) : Nat :=
  let a := T.areg f.as_.toNat
  if cvtFrom f = 3 then 32 * a.n else a.elems (fmtSize (cvtFrom f))

def specCvt (T : Tile) (f : FmtA) : IssueSpec :=
  let k := f.as_.toNat
  let n := cvtElems T f
  let tri := cvtFrom f == 3
  drawSpec T f (f.sfx.getLsbD 0) n
    (vecSpec T [illegalUnless (cvtTo f < 3 && cvtFrom f ≤ 3 && cvtFrom f != cvtTo f), rangesOk T [f.ad.toNat],
      if tri then firstFlt [tripleFlt T k, tripleLens T k (T.areg k).n] else firstFlt [rangesOk T [k], padFlt T k true],
      padFlt T f.ad.toNat ((T.areg f.ad.toNat).elems (fmtSize (cvtTo f)) == n)]
      [if tri then tripleHull T k else T.areg k] [T.areg f.ad.toNat] [])

def execCvt (t : TileAddr) (f : FmtA) (s : State) : Out :=
  let T := s.tile t
  .next (seqStep s t (f.word 0xA1) (specCvt T f) (effVec t (vecOp T opCvt f (cdiv (cvtElems T f) 64))))

/-- R180: identical to a source, or disjoint from it. -/
def sameOrApart (d a : Range) : Bool := d == a || !d.overlaps a

/-- VADD to VFMA, VMAX and VSEL: equal lengths, or with .B one granule for the second source (R179, R180). -/
def specElement (T : Tile) (f : FmtA) (readsD : Bool) : IssueSpec :=
  let d := T.areg f.ad.toNat
  let a := T.areg f.as_.toNat
  let b := T.areg f.at_.toNat
  vecSpec T [rangesOk T [f.ad.toNat, f.as_.toNat, f.at_.toNat], padFlt T f.as_.toNat true,
      padFlt T f.at_.toNat (b.n == (if f.sfx.getLsbD 2 then 1 else a.n)),
      padFlt T f.ad.toNat (d.n == a.n && sameOrApart d a && sameOrApart d b)]
    ([a, b] ++ (if readsD then [d] else [])) [d] []

def elementOp (T : Tile) (op : Nat) (f : FmtA) : AOp :=
  let a := T.areg f.as_.toNat
  vecOp T op f (cdiv (a.elems (fmtSize (f.sfx.toNat % 4))) 64)

def execVadd (t : TileAddr) (f : FmtA) (s : State) : Out :=
  .next (seqStep s t (f.word 0xA2) (specElement (s.tile t) f false) (effVec t (elementOp (s.tile t) opVadd f)))
def execVsub (t : TileAddr) (f : FmtA) (s : State) : Out :=
  .next (seqStep s t (f.word 0xA3) (specElement (s.tile t) f false) (effVec t (elementOp (s.tile t) opVsub f)))
def execVmul (t : TileAddr) (f : FmtA) (s : State) : Out :=
  .next (seqStep s t (f.word 0xA4) (specElement (s.tile t) f false) (effVec t (elementOp (s.tile t) opVmul f)))
def execVfma (t : TileAddr) (f : FmtA) (s : State) : Out :=
  .next (seqStep s t (f.word 0xA5) (specElement (s.tile t) f true) (effVec t (elementOp (s.tile t) opVfma f)))

/-- VMAX.R: the destination is one granule. -/
def specVmax (T : Tile) (f : FmtA) : IssueSpec :=
  let d := T.areg f.ad.toNat
  let a := T.areg f.as_.toNat
  if f.sfx.getLsbD 3 then
    vecSpec T [rangesOk T [f.ad.toNat, f.as_.toNat], padFlt T f.as_.toNat true,
      padFlt T f.ad.toNat (d.n == 1 && sameOrApart d a)] [a] [d] []
  else specElement T f false

def execVmax (t : TileAddr) (f : FmtA) (s : State) : Out :=
  .next (seqStep s t (f.word 0xA6) (specVmax (s.tile t) f) (effVec t (elementOp (s.tile t) opVmax f)))
def execVsel (t : TileAddr) (f : FmtA) (s : State) : Out :=
  .next (seqStep s t (f.word 0xAB) (specElement (s.tile t) f (!f.sfx.getLsbD 3)) (effVec t (elementOp (s.tile t) opVsel f)))

/-- VEXP, VRCP, VRSQ: equal lengths. -/
def specUnary (T : Tile) (f : FmtA) : IssueSpec :=
  let d := T.areg f.ad.toNat
  let a := T.areg f.as_.toNat
  vecSpec T [rangesOk T [f.ad.toNat, f.as_.toNat], padFlt T f.as_.toNat true,
    padFlt T f.ad.toNat (d.n == a.n && sameOrApart d a)] [a] [d] []

def execVexp (t : TileAddr) (f : FmtA) (s : State) : Out :=
  .next (seqStep s t (f.word 0xA7) (specUnary (s.tile t) f) (effVec t (elementOp (s.tile t) opVexp f)))
def execVrcp (t : TileAddr) (f : FmtA) (s : State) : Out :=
  .next (seqStep s t (f.word 0xA8) (specUnary (s.tile t) f) (effVec t (elementOp (s.tile t) opVrcp f)))
def execVrsq (t : TileAddr) (f : FmtA) (s : State) : Out :=
  .next (seqStep s t (f.word 0xA9) (specUnary (s.tile t) f) (effVec t (elementOp (s.tile t) opVrsq f)))

def specVsumx (T : Tile) (f : FmtA) : IssueSpec :=
  vecSpec T [rangesOk T [f.ad.toNat, f.as_.toNat], padFlt T f.as_.toNat true,
    rangeUnless (T.areg f.ad.toNat).inAccs f.ad.toNat] [T.areg f.as_.toNat] [T.areg f.ad.toNat] []

def execVsumx (t : TileAddr) (f : FmtA) (s : State) : Out :=
  let T := s.tile t
  let n := (T.areg f.as_.toNat).elems (sumSize (f.sfx.toNat % 4))
  .next (seqStep s t (f.word 0xAA) (specVsumx T f) (effVec t (vecOp T opVsumx f (cdiv n 64))))

/-- SMAX: a W16 destination of as many elements as the scores, which may overlap them (DESIGN CHOICE, log entry 106: Table 5.7 and R180 name
no fault for it). -/
def specSmax (T : Tile) (f : FmtA) : IssueSpec :=
  let d := T.areg f.ad.toNat
  let a := T.areg f.as_.toNat
  vecSpec T [rangesOk T [f.ad.toNat, f.as_.toNat, f.at_.toNat], padFlt T f.as_.toNat true, padFlt T f.at_.toNat true,
    padFlt T f.ad.toNat (d.elems 2 == a.elems (fmtSize (f.sfx.toNat % 4)))]
    [a, T.areg f.at_.toNat] [d] [f.sy.toNat]

def execSmax (t : TileAddr) (f : FmtA) (s : State) : Out :=
  .next (seqStep s t (f.word 0xAC) (specSmax (s.tile t) f) (effVec t (elementOp (s.tile t) opSmax f)))

/-- TOPK: k from 1 to 64, exactly ⌈k/4⌉ output granules apart from both inputs, lists of at most 16 granules (R184, R194). R184 names no
fault for a k outside its range: the model raises RANGE_FAULT naming ad (DESIGN CHOICE, log entry 106). -/
def specTopk (T : Tile) (f : FmtA) : IssueSpec :=
  let d := T.areg f.ad.toNat
  let a := T.areg f.as_.toNat
  let b := T.areg f.at_.toNat
  let k := f.imm.toNat % 128
  let l := f.sfx.getLsbD 0
  vecSpec T [rangesOk T [f.ad.toNat, f.as_.toNat, f.at_.toNat], padFlt T f.as_.toNat (!l || a.n ≤ 16),
    padFlt T f.at_.toNat (b.n ≤ 16),
    padFlt T f.ad.toNat (1 ≤ k && k ≤ 64 && d.n == cdiv k 4 && !d.overlaps a && !d.overlaps b)]
    [a, b] [d] (if l then [] else [f.sx.toNat])

def execTopk (t : TileAddr) (f : FmtA) (s : State) : Out :=
  let T := s.tile t
  let a := T.areg f.as_.toNat
  let n := (if f.sfx.getLsbD 0 then 4 * a.n else a.elems 4) + 4 * (T.areg f.at_.toNat).n
  .next (seqStep s t (f.word 0xAE) (specTopk T f) (effVec t (vecOp T opTopk f (cdiv n 64))))

/-- SAMPLE: a list of at most 16 granules, a scratchpad range whose first granule holds entry 0 of the row context, and one
granule of result. -/
def specSample (T : Tile) (f : FmtA) : IssueSpec :=
  let d := T.areg f.ad.toNat
  let a := T.areg f.as_.toNat
  let b := T.areg f.at_.toNat
  vecSpec T [rangesOk T [f.ad.toNat, f.as_.toNat, f.at_.toNat], padFlt T f.as_.toNat (a.n ≤ 16),
    padFlt T f.at_.toNat true, padFlt T f.ad.toNat (d.n == 1 && !d.overlaps a && !d.overlaps b)]
    [a, b] [d] [f.sx.toNat, f.sy.toNat]

def execSample (t : TileAddr) (f : FmtA) (s : State) : Out :=
  let op := vecOp (s.tile t) opSample f 1
  .next (seqStep s t (f.word 0xAD) (specSample (s.tile t) f) fun s => (effVec t op s).promise t op.id (op.sfxBit 1))

/-- PLAT: 2 source granules per dimension block; the buffer holds 34 × L granules (R190, R191). -/
def specPlat (T : Tile) (f : FmtA) : IssueSpec :=
  let d := T.areg f.ad.toNat
  let a := T.areg f.as_.toNat
  let sr := f.sfx.getLsbD 2
  let L := a.n / 2 * (if platWide f then 2 else 1)
  { needs := f.sy.toNat :: (if sr then [f.sx.toNat] else [])
    fault := firstFlt [rangesOk T [f.ad.toNat, f.as_.toNat], padFlt T f.as_.toNat (a.n % 2 == 0),
      padFlt T f.ad.toNat (d.n == 34 * L),
      if sr then firstFlt [rangesOk T [f.at_.toNat], padFlt T f.at_.toNat ((T.areg f.at_.toNat).n == 1)] else none]
    reads := a :: (if sr then [T.areg f.at_.toNat] else []), writes := [d]
    entry := some .serving, own := vecFull T }

def execPlat (t : TileAddr) (f : FmtA) (s : State) : Out :=
  let T := s.tile t
  .next (seqStep s t (f.word 0x62) (specPlat T f) (effVec t (vecOp T opPlat f (cdiv ((T.areg f.as_.toNat).n / 2) 2))))

end Sys2Proof.Machine
end

