-- ==== Sys2Proof/Machine/Issue.lean ====
section
/-! DEFINITION. The due clk of an exact-mode instruction (R236–R238): what the waiting instruction asks of the check stage, and
the slip of one that cannot issue. -/
namespace Sys2Proof.Machine

/-- What a tile instruction asks of the check stage. -/
def specOf (s : State) (t : TileAddr) : Instr → IssueSpec
  | .jmp _ f => specJmp f
  | .brc _ f => specBrc (s.tile t) f
  | .call _ f => specCall (s.tile t) f
  | .ret _ _ => specRet (s.tile t)
  | .loop _ f => specLoop (s.tile t) f
  | .halt _ _ => specHalt (s.tile t)
  | .stepwait _ f => specStepwait (s.tile t) f
  | .adds _ f | .subs _ f | .ands _ f | .ors _ f | .shls _ f | .cmps _ f => specAlu f
  | .movs _ f => specMovs f
  | .ldc _ f => specLdc (s.tile t) f
  | .stc _ f => specStc (s.tile t) f
  | .waita _ f => specWaita (s.tile t) f
  | .clra _ f => specClra (s.tile t) f
  | .wake _ f => specWake s t f
  | .sleep _ f => specSleep (s.tile t) f
  | .spin _ f => specSpin f
  | .bara _ f => specBara (s.tile t) f
  | .barw _ f => specBarw s t f
  | .holdreq _ f => { needs := src2Needs f }
  | .fence _ f => specFence (s.tile t) f
  | .dload _ f => specDload (s.tile t) f
  | .dstore _ f => specDstore (s.tile t) f
  | .dlatch _ f => specDlatch (s.tile t) f
  | .send _ f => specSend s t f
  | .win _ f => specWin (s.tile t) f
  | .cred _ f => specCred s t f
  | .copy _ f => specCopy (s.tile t) f
  | .desc _ f => specDesc s t f
  | .take _ f => specTake (s.tile t) f
  | .plat _ f => specPlat (s.tile t) f
  | .flushp _ f => specFlushp (s.tile t) f
  | .matv _ f => specMat (s.tile t) f false
  | .matm _ f => specMat (s.tile t) f true
  | .accz _ f => specAccz (s.tile t) f
  | .accout _ f => specAccout (s.tile t) f
  | .kdot _ f => specKdot (s.tile t) f
  | .vacc _ f => specVacc (s.tile t) f
  | .adapt _ f => specAdapt (s.tile t) f
  | .qact _ f => specQact (s.tile t) f
  | .cvt _ f => specCvt (s.tile t) f
  | .vadd _ f | .vsub _ f | .vmul _ f => specElement (s.tile t) f false
  | .vfma _ f => specElement (s.tile t) f true
  | .vmax _ f => specVmax (s.tile t) f
  | .vsel _ f => specElement (s.tile t) f (!f.sfx.getLsbD 3)
  | .vexp _ f | .vrcp _ f | .vrsq _ f => specUnary (s.tile t) f
  | .vsumx _ f => specVsumx (s.tile t) f
  | .smax _ f => specSmax (s.tile t) f
  | .topk _ f => specTopk (s.tile t) f
  | .sample _ f => specSample (s.tile t) f
  | _ => {}

/-- The verdict on the instruction that waits at the check stage; an undefined opcode is ILLEGAL_OP (R109, R114). -/
def waitingVerdict (s : State) (t : TileAddr) : Verdict :=
  let T := s.tile t
  let w := T.wordAt T.pc
  match decodeWord t w with
  | some i => verdict T w (specOf s t i)
  | none => .fault codeIllegal 0

/-- σ reaches the due value of the waiting instruction: one that stalls slips, one that fails a check faults, one that passes
is left to issue by its own command (R236, R237). -/
def execIssueDue (t : TileAddr) (s : State) : Out :=
  if !(s.partOf t).exact || !ready s t || (s.tile t).slip then .next s
  else match waitingVerdict s t with
    | .stall w => .next (recordSlip s t w)
    | .fault c d => .next (tileFault s t c d false)
    | .issue => .next s

end Sys2Proof.Machine
end

