-- ==== Sys2Proof/Machine/Clock.lean ====
section
/-! DEFINITION. What happens in one clk whatever is commanded: the tick that `step` takes on an empty queue (log entry 3). -/
namespace Sys2Proof.Machine

/-- One clk of a region's refresh counter and of its limit on burst starts; T changes at a multiple of 4,096 clk (R37). -/
def clkRegion (R : Region) : Region :=
  let n := R.refresh + 1
  { R with refresh := n, starts := 0, gap := R.gap - 1, hot := if n % 4096 = 0 then R.hotNext else R.hot }

/-- What one clk slews of a correction: at most 1 ns per ms, 3,276,800 parts (R366). -/
def slewStep (c : Int) : Int := max (-3276800) (min 3276800 c)

/-- Hall time after one clk of 50 ns / 47, slewed where a correction is due (R7, R366), counted exactly in 47,000,000ths of 2^−16 ns. -/
def clkHall (H : HallUnit) : HallUnit :=
  let d := slewStep H.slew
  let n := H.rem + (3276800000000 + d).toNat
  { H with now := H.now + n / 47000000, rem := n % 47000000, slew := H.slew - d }

/-- The instruction of a tile is due, and the check stage does not stall it (R236). -/
def issuesNow (s : State) (t : TileAddr) : Bool :=
  (s.partOf t).exact && (s.tile t).atDue &&
  (match waitingVerdict s t with
   | .stall _ => false
   | _ => true)

/-- One clk of a tile: only tiles in service of a running partition run (R113, Table 12.6). -/
def clkOne (s : State) (k : Nat) (T : Tile) : Tile :=
  match T.part with
  | some p => if (s.part p.val).running && T.inService then
      clkTile (s.part p.val) ((tileAt k).any fun t => issuesNow s t) T else T
  | none => T

/-- What ISSUE_DUE does at a tile, done for every tile whose clk goes by: an instruction that is due and stalls slips (R237). -/
def slipDue (s : State) (t : TileAddr) : State :=
  if (s.partOf t).running && (s.partOf t).exact && ready s t && !(s.tile t).slip then
    match waitingVerdict s t with
    | .stall w => recordSlip s t w
    | _ => s
  else s

/-- The slips of one clk. -/
def clkSlips (s : State) : State :=
  (s.tiles.map (·.1)).foldl (fun (s : State) k => match tileAt k with
    | some t => slipDue s t
    | none => s) s

/-- Transitions that the stagers complete in this clk (R208). -/
def clkStagers (old : FMap Region) (s : State) : State :=
  old.foldl (fun (s : State) (kv : Nat × Region) =>
    let R := FMap.get {} old kv.1
    if R.inService && R.gap == 1 then stagerClose s kv.1 else s) s

/-- Every region's domain is at VRET with its clocks stopped: after a shutdown, and while a warm restart runs (R446, R464). -/
def State.clocksStopped (s : State) : Bool := s.gov.shutdown || s.bru.phase == 5

/-- One clk of the regions and their tiles. -/
def clkRegions (s0 : State) : State :=
  let s := clkSlips s0
  clkStagers s.regions { s with
    tiles   := (s.tiles.map fun (kv : Nat × Tile) => (kv.1, clkOne s kv.1 kv.2)).filter fun kv => kv.2 != Tile.reset
    regions := s.regions.map fun (kv : Nat × Region) => (kv.1, if kv.2.inService then clkRegion kv.2 else kv.2) }

/-- One clk of the module. What has become ready in this instant starts its wait before hall time moves on (R272). A region counts from the clk in which it enters service. -/
def tick (s0 : State) : State :=
  let s1 := noteAll s0
  let s := if s1.clocksStopped then s1 else clkRegions s1
  { s with
    parts   := s.parts.map fun (kv : Nat × Partition) => (kv.1, { kv.2 with spacing := kv.2.spacing - 1, sendGap := kv.2.sendGap - 1 })
    hall    := clkHall s.hall }

end Sys2Proof.Machine
end

