-- ==== Sys2Proof/Machine/Handles.lean ====
section
/-! DEFINITION. Prefix handles and the KVP commands CREATE, RETIRE, PARK and RECALL (R317–R320, R328–R330). -/
namespace Sys2Proof.Machine

/-- A KVP op: ignored with KV_BUSY while a command runs (R330). -/
def kvCommand (s : State) (w : WinId) (run : State → State) : State :=
  if !pageShown s w.val pageKvp then s else if (s.kv w.val).busy then s.raiseKvp w.val 2 else run s

/-- Gives up a handle: its index is free and its generation count rises (R317; log entry 24). A command that is still running on it ends
with status 2. Lines on their way for it are still awaited, so that none counts for the next handle of the index. With it go the pages that
it holds in cache partitions (R328); `kill`: they are zeroised before they return (R471). -/
def retireHandleWith (s : State) (i : Nat) (kill : Bool) : State :=
  let s := (kvOn s i).foldl (kvFail 2) s
  let H := s.handle i
  (((H.part, H.pages) :: H.kept).foldl (fun (s : State) pp => s.mapPart pp.1 fun P => dropSetWith P pp.2 kill) s).setHandle i
    { gen := H.gen + 1, part := H.part, pages := { acks := H.pages.acks } }

def retireHandle (s : State) (i : Nat) : State := retireHandleWith s i false

/-! ### CREATE (R318) -/

/-- One layer of a new handle: references to the pages wholly below Lp, and a copy of the open part in a tail page. -/
def createLayer (r i lp : Nat) (acc : Option (State × PageSet)) (l : Nat) : Option (State × PageSet) :=
  match acc with
  | none => none
  | some (s, ps) =>
    let x := s.row r
    let p := x.part
    let src := FMap.get [] x.pages.tables l
    let whole := (src.take (lp / 64)).map fun t => ({ page := t.page, shared := true, sealed_ := true } : Tent)
    let s1 := s.mapPart p fun P => whole.foldl (fun P t => match P.page t.page with
      | some j => P.setPage t.page (some { j with refs := j.refs + 1 })
      | none => P) P
    let ps1 := whole.foldl (fun ps t => ps.append l t) ps
    if lp % 64 = 0 then some (s1, ps1)
    else match src[lp / 64]? with
      | none => none
      | some t =>
        let k8 := (((s1.part p).page t.page).map (·.k8)).getD false
        let ls := rowPage s1 r t (lp / 64)
        match placePage s1 p ((s1.part p).plat l) (i + lp / 64) (pageUnits (s1.part p).groups k8) [] with
        | none => none
        | some (home, u) =>
          let id := pageId home u
          let s2 := s1.mapPart p fun P => P.setPage id (some { layer := l, k8 := k8, st := .full, refs := 1, slot := none })
          let e : Tent := { page := id, shared := true, sealed_ := true, resume := true, fill := lp % 64 }
          some (writeFrame s2 p id (8192 + i) ls, { ps1.append l e with acks := ps1.acks + ls.length })

/-- A page of the row that Lp needs is LOST. -/
def lostBelow (s : State) (r lp : Nat) : Bool :=
  let x := s.row r
  x.pages.tables.any fun kv => (kv.2.take ((lp + 63) / 64)).any fun t => match (s.part x.part).page t.page with
    | some j => j.st == .lost
    | none => true

/-- The handle that CREATE makes of a row's first Lp positions. -/
def newHandle (gen : BitVec 16) (w : Nat) (x : Row) (lp : Nat) (ps : PageSet) : Handle where
  gen := gen
  live := true
  owner := w
  part := x.part
  origin := x.part
  len := lp
  weightGen := x.weightGen
  slot := if x.adaptNone then none else some (x.adaptSlot, x.adaptGen)
  seed := x.reqSeed
  tokens := (x.log.take lp).map (·.1)
  pages := ps

/-- CREATE, from a row of the caller (R318): it ends when every line of the handle is written (log entry 112). -/
def createHandle (s : State) (w : WinId) : State :=
  let K := s.kv w.val
  let r := (K.row.extractLsb' 0 13).toNat
  let x := s.row r
  let lp := K.len.toNat
  let P := s.part x.part
  if lp = 0 || 262143 < lp then s.endKv w.val 1 none
  else if x.state != 0 && x.owner != w.val then s.endKv w.val 3 none
  else if !(x.state == 7 || x.state == 8) || x.part != (K.part.extractLsb' 0 4).toNat then s.endKv w.val 4 none
  else if x.closedTo < lp then s.endKv w.val 5 none
  else if lostBelow s r lp then s.endKv w.val 0xA none
  else match (List.range 4096).find? fun i => i != 0 && !(s.handle i).live with
    | none => s.endKv w.val 6 none
    | some i =>
      let n := (lp + 63) / 64
      match tableRun s x.part (cdiv (n + 1) 128) with
      | none => s.endKv w.val 7 none
      | some base =>
        let ps0 : PageSet := { base := base, lines := cdiv (n + 1) 128, acks := (s.handle i).pages.acks }
        match P.feet.foldl (fun acc f => createLayer r i lp acc f.layer) (some (s, ps0)) with
        | none => s.endKv w.val 7 none
        | some (s1, ps) =>
          let t := writeTables s1 x.part (8192 + i) ps (P.feet.flatMap fun f => (List.range n).map fun k => (f.layer, k))
          let H : Handle := newHandle (s.handle i).gen w.val x lp t.2
          let s2 := t.1.setHandle i H
          kvFinish (s2.setKv w.val { s2.kv w.val with busy := true, run := some { op := 1, handle := i, part := x.part, hall := 0 } }) w.val

def execCreate (w : WinId) (s : State) : Out := .next (kvCommand s w fun s => createHandle s w)

/-! ### RETIRE -/

/-- The handle of a command: status 2 when it is free or stale, 3 when the caller may not use it. -/
def withHandle (s : State) (w : WinId) (act : Nat → Handle → State) : State :=
  match handleOf s (s.kv w.val).handle with
  | none => s.endKv w.val 2 none
  | some (i, H) => if w.val != 0 && H.owner != w.val then s.endKv w.val 3 none else act i H

def execRetire (w : WinId) (s : State) : Out :=
  .next (kvCommand s w fun s => withHandle s w fun i _ => (retireHandle s i).endKv w.val 0 none)

/-! ### PARK and RECALL (R328, R329) -/

/-- A handle awaits n more lines. -/
def awaitLines (s : State) (i n : Nat) : State :=
  let H := s.handle i
  s.setHandle i { H with pages := { H.pages with acks := H.pages.acks + n } }

/-- Moves one page of a handle to a place of partition `q`: its lines are read, and written at P2 into the new frame; the handle awaits
them. -/
def movePage (s : State) (p q i : Nat) (t : Tent) (l : Nat) (place : Option (Nat × Nat)) : Option (State × Tent) :=
  match place with
  | none => none
  | some (home, u) =>
    let k8 := (((s.part p).page t.page).map (·.k8)).getD false
    let ls := pageContents s p t.page
    let id := pageId home u
    let s0 := s.mapPart q fun Q => Q.setPage id (some { layer := l, k8 := k8, st := .full, refs := 1, slot := none })
    let s1 := awaitLines s0 i ls.length
    some (writeFrame s1 q id (8192 + i) ls, { t with page := id })

/-- Moves every page of a handle from partition p to partition q, choosing places by `tiles` and `idx` of layer and page. -/
def moveAll (s : State) (p q i : Nat) (H : Handle) (tiles : Nat → List Nat) (idx : Nat → Nat → Nat) :
    Option (State × FMap (List Tent)) :=
  H.pages.tables.foldl (fun acc kv =>
    match acc with
    | none => none
    | some (s, ts) =>
      let out := ((List.range kv.2.length).zip kv.2).foldl (fun (a : Option (State × List Tent)) (kt : Nat × Tent) =>
        match a with
        | none => none
        | some (s, es) =>
          let k8 := (((s.part p).page kt.2.page).map (·.k8)).getD false
          (movePage s p q i kt.2 kv.1 (placePage s q (tiles kv.1) (idx kv.1 kt.1) (pageUnits (s.part q).groups k8) [])).map
            fun st => (st.1, es ++ [st.2])) (some (s, []))
      out.map fun o => (o.1, FMap.set [] ts kv.1 o.2)) (some (s, []))

/-- A move within the module runs until every line of the handle is written. -/
def startMove (s : State) (w : WinId) (op i q : Nat) (ps : PageSet) : State :=
  kvFinish (s.setKv w.val { s.kv w.val with
    busy := true, run := some { op := op, handle := i, part := q, hall := s.hall.addr, pages := ps } }) w.val

/-- PARK into a cache partition of this module. -/
def parkLocal (s : State) (w : WinId) (i : Nat) (H : Handle) (q : Nat) : State :=
  let Q := s.part q
  if !(Q.loaded && Q.role == 2) then s.endKv w.val 9 none
  else match moveAll s H.part q i H (fun _ => Q.storeTiles) (fun l k => i + k + l) with
    | none => s.endKv w.val 7 none
    | some (s1, ts) => startMove s1 w 3 i q { tables := ts }

/-- The page messages of a PARK to another module. -/
def parkRemote (s : State) (w : WinId) (i : Nat) (H : Handle) (hall : BitVec 16) (q : Nat) : State :=
  let P := s.part H.part
  let model := ((P.gen (P.copyOf H.weightGen)).map (·.man.digest)).getD 0
  let sl := H.slot.map fun jn => ((P.slot jn.1), jn.2)
  let ad := (sl.bind fun xn =>
    if (xn.1.copy0.map (·.no)) == some xn.2 then xn.1.copy0.map (·.man.digest) else xn.1.copy1.map (·.man.digest)).getD 0
  let jobs := H.pages.tables.flatMap fun kv => ((List.range kv.2.length).zip kv.2).map fun kt => (kv.1, kt.1, kt.2)
  let s1 := jobs.foldl (fun (s : State) (j : Nat × Nat × Tent) =>
    let fill := if j.2.2.resume then j.2.2.fill else 64
    let k8 := (((s.part H.part).page j.2.2.page).map (·.k8)).getD false
    ship s H.part hall
      { kind := if fill < 64 then 5 else 4, fmt := if k8 then 1 else 0, destRow := i, k := j.2.1, layer := j.1, fill := fill,
        destPart := q, srcRow := i, srcHall := s.hall.addr, reqSeed := H.seed, promptLen := 0, model := model, adapter := ad,
        lines := pageContents s H.part j.2.2.page } (some w.val)) s
  if jobs.isEmpty then (parkDone s1 i hall q).endKv w.val 0 none
  else s1.setKv w.val { s1.kv w.val with
    busy := true, run := some { op := 3, handle := i, part := q, hall := hall, away := true, left := jobs.map fun j => (j.1, j.2.1) } }

/-- PARK: a resident handle's pages move into a cache partition. -/
def execPark (w : WinId) (s : State) : Out :=
  .next (kvCommand s w fun s => withHandle s w fun i H =>
    if H.parked.isSome || !(kvOn s i).isEmpty then s.endKv w.val 8 none
    else
      let d := (s.kv w.val).dest
      let q := (d.extractLsb' 32 4).toNat
      if d.getLsbD 0 then parkRemote s w i H (d.extractLsb' 48 16) q else parkLocal s w i H q)

/-- RECALL: a parked handle's pages move back into the serving partition of KV_CMD_PART. No message asks another module for
parked pages, so a handle parked there is unreachable (log entry 25). -/
def execKvRecall (w : WinId) (s : State) : Out :=
  .next (kvCommand s w fun s => withHandle s w fun i H =>
    match if (kvOn s i).isEmpty then H.parked else none with
    | none => s.endKv w.val 8 none
    | some (hall, _) =>
      let q := ((s.kv w.val).part.extractLsb' 0 4).toNat
      let Q := s.part q
      if !(Q.loaded && Q.role != 2) then s.endKv w.val 1 none
      else if hall != s.hall.addr || (s.part H.part).role != 2 then s.endKv w.val 9 none
      else
        let n := (H.pages.tables.map fun kv => kv.2.length).foldl max 0
        match tableRun s q (cdiv (n + 1) 128), moveAll s H.part q i H (fun l => Q.plat l) (fun _ k => i + k) with
        | some base, some (s1, ts) =>
          let ps : PageSet := { base := base, lines := cdiv (n + 1) 128, version := H.pages.version, tables := ts }
          let t := writeTables s1 q (8192 + i) ps (Q.feet.flatMap fun f => (List.range n).map fun k => (f.layer, k))
          startMove (awaitLines t.1 i t.2.acks) w 4 i q { t.2 with acks := 0 }
        | _, _ => s.endKv w.val 7 none)

end Sys2Proof.Machine
end

