-- ==== Sys2Proof/Machine/ImageBytes.lean ====
section
/-! DEFINITION. Reading a build image and a manifest from their bytes (R8, R244–R248, R333, Tables 7.4–7.7, 10.1–10.3, 10.5, 11.7).
The SERVICE_MAP records of kinds 1 to 4 and the ROUTES and DIVERSION sections have no byte layout in the spec: their contents are operands
(log entry 108). -/
namespace Sys2Proof.Machine

/-! ### Fields -/

/-- Bytes o to o + n − 1. -/
def bytesAt (bs : List Byte) (o n : Nat) : List Byte := (bs.drop o).take n

/-- The little-endian field at bytes o to o + n − 1. -/
def fieldAt (bs : List Byte) (o n : Nat) : Nat := natLE (bytesAt bs o n)

def zeroAt (bs : List Byte) (o n : Nat) : Bool := (bytesAt bs o n).all (· == 0)

/-- The first k records of n bytes. -/
def chunks (n : Nat) : Nat → List Byte → List (List Byte)
  | 0, _ => []
  | k + 1, bs => bs.take n :: chunks n k (bs.drop n)

/-- A section of records of n bytes; none when its length is no multiple. -/
def recordsOf (n : Nat) (bs : List Byte) : Option (List (List Byte)) :=
  if bs.length % n = 0 then some (chunks n (bs.length / n) bs) else none

/-! ### Sections with a layout. A section whose bytes form no such records reads as one that its own check refuses (log entry 108). -/

/-- TILE_PROGRAMS: tile address, count n, n words. -/
def programRecs : Nat → List Byte → Option (List ProgRec)
  | _, [] => some []
  | 0, _ => none
  | k + 1, bs =>
    let n := fieldAt bs 4 4
    if bs.length < 8 + 8 * n then none
    else (programRecs k (bs.drop (8 + 8 * n))).map fun rs =>
      { tile := BitVec.ofNat 32 (fieldAt bs 0 4)
        words := (chunks 8 n (bs.drop 8)).map fun x => BitVec.ofNat 64 (natLE x) } :: rs

/-- ISSUE_PLANS: tile address, count n, n 16-bit delays, padded to 8 bytes. -/
def planRecs : Nat → List Byte → Option (List PlanRec)
  | _, [] => some []
  | 0, _ => none
  | k + 1, bs =>
    let n := fieldAt bs 4 4
    let len := 8 + 8 * cdiv n 4
    if bs.length < len then none
    else (planRecs k (bs.drop len)).map fun rs =>
      { tile := BitVec.ofNat 32 (fieldAt bs 0 4)
        delays := (chunks 2 n (bs.drop 8)).map fun x => BitVec.ofNat 16 (natLE x) } :: rs

/-- TILE_INIT (Table 7.7). -/
def initRec (x : List Byte) : InitRec :=
  { tile := BitVec.ofNat 32 (fieldAt x 0 4), credit := bytesAt x 4 16, barMember := BitVec.ofNat 32 (fieldAt x 20 4) }

/-- COLUMN_MAP (Table 7.6). -/
def areaRec (x : List Byte) : AreaRec :=
  { tile := BitVec.ofNat 32 (fieldAt x 0 4), kind := fieldAt x 4 1, first := fieldAt x 6 2, count := fieldAt x 8 2 }

/-- WEIGHT_MAP records (Table 10.5). -/
def weightRec (x : List Byte) : WeightRec :=
  { packing := fieldAt x 2 1, area := fieldAt x 3 1, shard := fieldAt x 4 4, offset := fieldAt x 8 8
    tile := BitVec.ofNat 32 (fieldAt x 16 4), line := fieldAt x 20 2, count := fieldAt x 22 2 }
def layoutRec (x : List Byte) : AdapterLayout := { groups := fieldAt x 2 2, stride := fieldAt x 4 2, packing := fieldAt x 6 2 }
def adapterRec (x : List Byte) : AdapterRec :=
  { group := fieldAt x 2 2, shard := fieldAt x 4 4, offset := fieldAt x 8 8
    tile := BitVec.ofNat 32 (fieldAt x 16 4), line := fieldAt x 20 2, count := fieldAt x 22 2 }

/-- The kind of a WEIGHT_MAP or TIMETABLE record. -/
def recKind (x : List Byte) : Nat := fieldAt x 0 2

/-- A WEIGHT_MAP that check 12 refuses. -/
def badWeights : WeightMap :=
  { lines := [{ packing := 255, area := 255, shard := 0, offset := 0, tile := 0, line := 0, count := 0 }], layout := none, adapters := [] }

def weightMap (bs : List Byte) : WeightMap :=
  match recordsOf 32 bs with
  | none => badWeights
  | some rs =>
    let layouts := rs.filter fun x => recKind x == 2
    if rs.any (fun x => recKind x == 0 || 3 < recKind x) || 1 < layouts.length then badWeights
    else { lines := (rs.filter fun x => recKind x == 1).map weightRec, layout := layouts.head?.map layoutRec,
           adapters := (rs.filter fun x => recKind x == 3).map adapterRec }

/-- TIMETABLE records (Table 11.7). -/
def slotRec (x : List Byte) : SlotRec := { port := fieldAt x 2 1, slot := fieldAt x 4 2 }
def routeRec (x : List Byte) : RouteRec :=
  { index := fieldAt x 2 2, destHall := BitVec.ofNat 16 (fieldAt x 4 2), destPart := fieldAt x 6 1 % 16, flow := fieldAt x 7 1 != 0
    port := fieldAt x 8 1, granule := fieldAt x 10 2, tile := BitVec.ofNat 32 (fieldAt x 12 4) }

/-- The slot and route records; a section that is no list of them has a slot of port 255, which check 15 refuses. -/
def timetable (bs : List Byte) : List SlotRec × List RouteRec :=
  match recordsOf 16 bs with
  | none => ([⟨255, 0⟩], [])
  | some rs =>
    if rs.any fun x => recKind x == 0 || 2 < recKind x || (recKind x == 2 && 1 < fieldAt x 7 1) then ([⟨255, 0⟩], [])
    else ((rs.filter fun x => recKind x == 1).map slotRec, (rs.filter fun x => recKind x == 2).map routeRec)

/-- Kind of a SERVICE_MAP record's contents (Table 7.9). -/
def serviceKind : ServiceRec → Nat
  | .footprint .. => 1
  | .embedding _ => 2
  | .head .. => 3
  | .draftLink .. => 4
  | .pageLayout .. => 5
  | .store _ => 6

/-- Page layout record (Table 9.3). -/
def layoutBytes (x : List Byte) : ServiceRec := .pageLayout (fieldAt x 4 1) (fieldAt x 5 1) (fieldAt x 6 2) (fieldAt x 8 2)

/-- A rectangle of the Store record (R329). -/
def rectBytes (x : List Byte) : StoreRect := { col := fieldAt x 0 2, row := fieldAt x 2 2, w := fieldAt x 4 2, h := fieldAt x 6 2 }

/-- SERVICE_MAP: each record begins with its kind and its length (Table 7.9); Page layout and Store records as Table 9.3 and R329 lay them
out; those of kinds 1 to 4 take their contents from `ops`, in order. -/
def serviceRecs : Nat → List Byte → List ServiceRec → Option (List ServiceRec)
  | _, [], _ => some []
  | 0, _, _ => none
  | k + 1, bs, ops =>
    let kind := fieldAt bs 0 2
    let len := fieldAt bs 2 2
    let rest := bs.drop len
    if len < 4 || bs.length < len then none
    else if kind = 5 then
      if len = 12 then (serviceRecs k rest ops).map (layoutBytes bs :: ·) else none
    else if kind = 6 then
      let n := fieldAt bs 4 2
      if len = 8 + 8 * n then (serviceRecs k rest ops).map (.store ((chunks 8 n (bs.drop 8)).map rectBytes) :: ·) else none
    else match ops with
      | r :: rs => if serviceKind r = kind && kind ≤ 4 then (serviceRecs k rest rs).map (r :: ·) else none
      | [] => none

/-- The SERVICE_MAP of a section's bytes; one that is no list of records has an empty Store record, which check 11 refuses. -/
def serviceMap (bs : List Byte) (ops : List ServiceRec) : List ServiceRec := (serviceRecs bs.length bs ops).getD [.store []]

/-- The reserved bytes of the Page layout and Store records are zero (Table 9.3, R329). -/
def serviceClean : Nat → List Byte → Bool
  | 0, _ => true
  | k + 1, bs =>
    let kind := fieldAt bs 0 2
    let len := fieldAt bs 2 2
    if len < 4 || bs.length < len then true
    else (if kind = 5 then zeroAt bs 10 2 else if kind = 6 then zeroAt bs 6 2 else true) && serviceClean k (bs.drop len)

/-- The bytes that a section's record layout reserves are zero (R244). -/
def sectionClean (kind : Nat) (bs : List Byte) : Bool :=
  if kind = 3 then (chunks 32 (bs.length / 32) bs).all fun x => zeroAt x 24 8
  else if kind = 4 then (chunks 32 (bs.length / 32) bs).all fun x => if recKind x = 2 then zeroAt x 8 24 else zeroAt x 24 8
  else if kind = 5 then (chunks 16 (bs.length / 16) bs).all fun x => zeroAt x 5 1 && zeroAt x 10 6
  else if kind = 7 then (chunks 16 (bs.length / 16) bs).all fun x =>
    if recKind x = 2 then fieldAt x 6 1 < 16 && zeroAt x 9 1 else zeroAt x 3 1 && zeroAt x 6 10
  else if kind = 6 then serviceClean bs.length bs
  else true

/-! ### A whole image -/

/-- The signature block at the end of bytes verifies over the bytes before it (R248). -/
def signedBy (bs : List Byte) : Bool :=
  let n := bs.length - 128
  Config.ecdsa (BitVec.ofNat 128 (fieldAt bs n 16)) (fieldAt bs (n + 16) 48) (fieldAt bs (n + 64) 48) (Config.sha384 (bs.take n))

/-- The header (Table 7.4); the zeros of the signature block count among the reserved bytes (R248, Table 7.19). -/
def imageHeader (bs : List Byte) : ImageHeader :=
  { magic := BitVec.ofNat 32 (fieldAt bs 0 4), format := BitVec.ofNat 16 (fieldAt bs 4 2), imageLen := fieldAt bs 8 8
    gx0 := fieldAt bs 16 1, gy0 := fieldAt bs 17 1, width := fieldAt bs 18 1, height := fieldAt bs 19 1
    mode := fieldAt bs 20 1, arith := fieldAt bs 21 1, role := fieldAt bs 22 1, refreshDecl := fieldAt bs 23 1
    stepInterval := fieldAt bs 24 4, entryTile := BitVec.ofNat 32 (fieldAt bs 28 4), gateTile := BitVec.ofNat 32 (fieldAt bs 32 4)
    manifestDigest := BitVec.ofNat 384 (fieldAt bs 36 48), toolVersion := BitVec.ofNat 64 (fieldAt bs 84 8)
    buildSerial := BitVec.ofNat 64 (fieldAt bs 92 8)
    reservedZero := zeroAt bs 100 412 && zeroAt bs (bs.length - 16) 16 }

/-- A directory entry (Table 7.5): index zero but for a diversion plan; its section's reserved bytes go with it. -/
def secEntry (bs x : List Byte) : SecEntry :=
  let kind := fieldAt x 0 2
  let offset := fieldAt x 8 8
  let length := fieldAt x 16 8
  { kind := kind, index := fieldAt x 2 2, offset := offset, length := length
    reservedZero := zeroAt x 4 4 && zeroAt x 24 8 && (kind == 9 || zeroAt x 2 2) && sectionClean kind (bytesAt bs offset length) }

/-- The image that `len` bytes of the host's memory hold, past the operand's end zero. The diversion plan of a directory entry is
the operand's for its region, or one that changes nothing but the region's entries. -/
def imageOf (f : ImageFile) (len : Nat) : ImageData :=
  let bs := padTo len (f.bytes.take len)
  let secs := (chunks 32 (fieldAt bs 6 2) (bs.drop 512)).map (secEntry bs)
  let sec := fun k => match secs.find? fun e => e.kind == k with
    | some e => bytesAt bs e.offset e.length
    | none => []
  let has := fun k => secs.any fun e => e.kind == k
  let h := imageHeader bs
  let rows := timetable (sec 7)
  { header := h, secs := secs
    programs := (programRecs bs.length (sec 1)).getD []
    plans := (planRecs bs.length (sec 2)).getD [⟨0xFFFFFFFF, []⟩]
    inits := ((recordsOf 32 (sec 3)).getD []).map initRec
    weights := weightMap (sec 4)
    areas := match recordsOf 16 (sec 5) with
      | some rs => rs.map areaRec
      | none => [⟨0, 255, 0, 0⟩]
    service := if has 6 then serviceMap (sec 6) f.service else []
    slots := rows.1, outRoutes := rows.2
    routes := if has 8 then f.routes else []
    divs := (secs.filter fun e => e.kind == 9).map fun e => (f.divs.find? fun d => d.region == e.index).getD
      { region := e.index, programs := [], plans := [], inits := [], weights := { lines := [], layout := none, adapters := [] },
        routes := [], service := [], entryTile := none, gateTile := none, stepInterval := h.stepInterval }
    groups := f.groups
    keyId := BitVec.ofNat 128 (fieldAt bs (len - 128) 16), sigValid := signedBy bs, digest := Config.sha384 bs }

/-! ### A whole manifest -/

/-- A source entry (Table 10.3), and whether its reserved bytes are zero. -/
def sourceEntry (x : List Byte) : ShardSource := { kind := fieldAt x 0 1, hall := BitVec.ofNat 16 (fieldAt x 2 2) }
def sourceClean (x : List Byte) : Bool := zeroAt x 1 1 && zeroAt x 4 12

/-- A shard entry (Table 10.2). -/
def shardEntry (x : List Byte) : ShardEntry :=
  { index := fieldAt x 0 4, length := fieldAt x 4 4, digest := BitVec.ofNat 384 (fieldAt x 8 48)
    sources := (chunks 16 4 (x.drop 64)).map sourceEntry }
def shardClean (x : List Byte) : Bool := zeroAt x 56 8 && (chunks 16 4 (x.drop 64)).all sourceClean

/-- The manifest that `len` bytes of the host's memory hold (Table 10.1). Without the length that its n_shards gives it lists no
shard, and is refused as no manifest (log entry 108). -/
def manifestOf (f : ManifestFile) (len : Nat) : ManifestData :=
  let bs := padTo len (f.bytes.take len)
  let n := fieldAt bs 8 4
  let es := if len = 256 + 128 * n then chunks 128 n (bs.drop 128) else []
  { magic := BitVec.ofNat 32 (fieldAt bs 0 4), format := BitVec.ofNat 16 (fieldAt bs 4 2), kind := fieldAt bs 6 1
    vocab := fieldAt bs 12 4, layers := fieldAt bs 16 4, base := BitVec.ofNat 384 (fieldAt bs 24 48)
    serial := BitVec.ofNat 64 (fieldAt bs 72 8), shards := es.map shardEntry
    reservedZero := zeroAt bs 7 1 && zeroAt bs 20 4 && zeroAt bs 80 48 && es.all shardClean && zeroAt bs (len - 16) 16
    keyId := BitVec.ofNat 128 (fieldAt bs (len - 128) 16), sigValid := f.sigValid, digest := Config.sha384 bs }

end Sys2Proof.Machine
end

