-- ==== Sys2Proof/Machine/Roundhouse.lean ====
section
/-! DEFINITION. The Roundhouse: manifests, shards, generations, adapters, the badger and the scrub log (R333–R362). -/
namespace Sys2Proof.Machine

/-! ### Keys (R248, R333, R468) -/

/-- A key identifier is enrolled for a usage bit and not revoked. -/
def keyOk (s : State) (id : BitVec 128) (bit : Nat) : Bool :=
  !(s.sec.revoked.contains id) && s.sec.keys.any fun kv => kv.1 != 0 && (match kv.2 with
    | some k => k.id == id && k.usage.getLsbD bit
    | none => false)

/-! ### Manifests (R334) -/

def manifestWellFormed (m : ManifestData) : Bool :=
  m.magic == 0x4C574D31 && m.format == 1 && m.kind ≤ 1 && m.reservedZero &&
  1 ≤ m.shards.length && m.shards.length ≤ 65536 &&
  ((List.range m.shards.length).zip m.shards).all (fun ie => ie.2.index == ie.1 && 1 ≤ ie.2.length && ie.2.length ≤ 67108864 &&
    ie.2.sources.all (fun q => q.kind ≤ 3) && ie.2.sources.any (fun q => q.kind != 0)) &&
  (m.kind == 0 || (1 ≤ m.vocab && (m.kind == 1)))

/-! ### Placement (R335–R339) -/

/-- Record bytes of a packing, and the data bytes among them (Table 10.4). -/
def recordLen (packing : Nat) : Nat := if packing = 0 then 1088 else if packing = 1 then 832 else 1152

/-- The 3-bit field of element e of row r of an L3 record, sign-extended to 4 bits (R336). -/
def l3Field (bs : List Byte) (i : Nat) : Nat :=
  let bit := fun n => ((bs.getD (n / 8) 0).getLsbD (n % 8)).toNat
  let v := bit (3 * i) + 2 * bit (3 * i + 1) + 4 * bit (3 * i + 2)
  if 4 ≤ v then v + 8 else v

/-- A line and its side field from one record (R335, R336). -/
def unpackLine (packing : Nat) (bs : List Byte) : List Byte × List Byte :=
  if packing = 1 then
    ((List.range 1024).map fun k => BitVec.ofNat 8 (l3Field bs (2 * k) + 16 * l3Field bs (2 * k + 1)),
     padTo 128 ((bs.drop 768).take 64))
  else if packing = 0 then (bs.take 1024, padTo 128 ((bs.drop 1024).take 64))
  else (bs.take 1024, (bs.drop 1024).take 128)

/-- Where one run of line records goes: tile, column lines, packing, shard offset. -/
structure Place where
  tile : Nat
  lines : List Nat
  packing : Nat
  offset : Nat
  deriving DecidableEq, Repr

/-- A tile of a lost region, of which nothing is written. -/
def Partition.gone (P : Partition) (tile : Nat) : Bool :=
  match tileAt tile with
  | some t => P.lost == some (regionOf t)
  | none => true

/-- Places of a shard of a weight generation in a copy: area 0 goes to kind 0 or 1; area 2 lines, the image's own and those that a plan
adds, to kind 2 or 3, only with a diversion in force (R338). A plan in force has joined the image's records (R247). -/
def weightPlaces (P : Partition) (copy : Bool) (shard : Nat) : List Place :=
  match P.image with
  | none => []
  | some img =>
    (img.weights.lines.filter fun x => x.shard == shard && (x.area == 0 || P.lost.isSome) && !P.gone x.tile.toNat).map fun x =>
      let runs := P.runs x.tile.toNat (x.area + (if copy then 1 else 0))
      { tile := x.tile.toNat, lines := (List.range x.count).filterMap fun i => runsLine runs (x.line + i),
        packing := x.packing, offset := x.offset }

/-- Places of a shard of slot j in a copy (R339): local index λ = j / G, S lines per slot copy. -/
def adapterPlaces (P : Partition) (j : Nat) (copy : Bool) (shard : Nat) : List Place :=
  match P.image with
  | none => []
  | some img =>
    match img.weights.layout with
    | none => []
    | some lay =>
      img.weights.adapters.filterMap fun x =>
        if x.shard != shard || x.group != j % lay.groups || P.gone x.tile.toNat then none
        else (P.area x.tile.toNat 4).map fun a =>
          let first := a.1 + lay.stride * (2 * (j / lay.groups) + (if copy then 1 else 0)) + x.line
          { tile := x.tile.toNat, lines := (List.range x.count).map (first + ·), packing := lay.packing, offset := x.offset }

def shardPlaces (P : Partition) (slot : Option Nat) (copy : Bool) (shard : Nat) : List Place :=
  match slot with
  | none => weightPlaces P copy shard
  | some j => adapterPlaces P j copy shard

/-- The lines of a place, from the shard's bytes. -/
def placeLines (bytes : List Byte) (q : Place) : List (Nat × List Byte × List Byte) :=
  ((List.range q.lines.length).zip q.lines).map fun il =>
    let u := unpackLine q.packing ((bytes.drop (q.offset + recordLen q.packing * il.1)).take (recordLen q.packing))
    (il.2, u.1, u.2)

/-- A shard's lines set out for the tier ports at P3, through the rim gate (R341). -/
def distribute (s : State) (w : Nat) (shard : Nat) (bytes : List Byte) : State :=
  match (s.rn w).load with
  | none => s
  | some L =>
    let jobs := (shardPlaces (s.part L.part) L.slot L.copy shard).flatMap fun q => (placeLines bytes q).map fun l => (q.tile, l)
    let ok := jobs.filter fun j => (tileAt j.1).isSome
    let s1 := ok.foldl (fun (s : State) (j : Nat × Nat × List Byte × List Byte) =>
      writeLow s L.part j.1 3 j.2.1 j.2.2.1 j.2.2.2 (some (16384 + w))) s
    s1.setRn w { s1.rn w with load := some { L with lines := L.lines + ok.length } }

/-! ### Hashing engines (R340) -/

def hashEngines : Nat := 64

/-- A shard takes the first free engine, unless it has one; none when all are busy. -/
def takeEngine (s : State) (w i : Nat) : Option State :=
  if s.house.engines.any fun kv => kv.2 == some (w, i) then some s
  else ((List.range hashEngines).find? fun k => FMap.get none s.house.engines k == none).map fun k =>
    { s with house := { s.house with engines := FMap.set none s.house.engines k (some (w, i)) } }

/-- The engines of the shards of window w that satisfy `c` are free. -/
def giveEngines (s : State) (w : Nat) (c : Nat → Bool) : State :=
  { s with house := { s.house with engines := s.house.engines.filter fun kv => match kv.2 with
      | some (v, i) => v != w || !c i
      | none => false } }

def giveEngine (s : State) (w i : Nat) : State := giveEngines s w (· == i)

/-- Shards that are hashed again from their masters take engines as they become free, in order of window and shard. -/
def assignEngines (s : State) : State :=
  s.rnd.foldl (fun (s : State) (kv : Nat × RndWin) => match kv.2.load with
    | some L => ((List.range L.shards.length).zip L.shards).foldl (fun (s : State) (ix : Nat × ShardRun) =>
        if ix.2.st = .rehash then (takeEngine s kv.1 ix.1).getD s else s) s
    | none => s) s

/-- Digests that some resident or loading generation uses. -/
def usedDigests (s : State) : List (BitVec 384) :=
  (s.parts.flatMap fun kv =>
    let gens := [kv.2.copy0, kv.2.copy1].filterMap id
    let slots := kv.2.slots.flatMap fun jx => [jx.2.copy0, jx.2.copy1].filterMap id
    (gens.map (·.man)) ++ slots.map (·.man)).flatMap fun m => m.shards.map (·.digest)

/-- Bytes of the rim stacks that masters can take: 24 stacks of 48 GiB (Table 1.6; log entry 26). -/
def masterSpace : Nat := 24 * 48 * 2 ^ 30

/-- Room for a manifest's new masters beside those in use; masters with no reference give way (R340, Table 14.7). -/
def mastersFit (s : State) (m : ManifestData) : Bool :=
  let used := usedDigests s
  let held := s.house.masters.filter fun x => used.contains x.digest
  let new := m.shards.filter fun e => !(held.any fun x => x.digest == e.digest)
  decide ((held.foldl (fun (a : Nat) (x : Master) => a + x.bytes.length) 0) + (new.foldl (fun (a : Nat) (e : ShardEntry) => a + e.length) 0) ≤ masterSpace)

/-! ### Commands (R360) -/

/-- An RND op: ignored with RND_BUSY while a command of the window runs. -/
def rndCommand (s : State) (w : WinId) (run : State → State) : State :=
  if !pageShown s w.val pageRnd then s else if (s.rn w.val).busy then s.raiseRnd w.val 2 false else run s

/-- How a shard starts: from a verified master it is hashed again, otherwise fetched (R340, R341). -/
def shardStart (s : State) (e : ShardEntry) : ShardRun :=
  { st := if s.goodMaster e.digest then .rehash else .fetching, source := nextSource e 0 }

/-- Signature and form of a manifest (R334): the status that ends the command, or none. -/
def manifestStatus (s : State) (m : ManifestData) (kind : Nat) : Option Byte :=
  if !manifestWellFormed m || m.kind != kind then some 3
  else if !(keyOk s m.keyId 1 && m.sigValid) then some 2
  else none

/-- Every record of the shards lies inside its shard and names a listed one (R337). -/
def recordsFit (m : ManifestData) (rs : List (Nat × Nat × Nat × Nat)) : Bool :=
  rs.all fun r => match m.shards[r.1]? with
    | some e => decide (r.2.1 + recordLen r.2.2.1 * r.2.2.2 ≤ e.length)
    | none => false

/-- Starts the shards of a load; no good scrub of the copy's former generation counts for it (R354). -/
def startLoad (s : State) (w : Nat) (L : Load) (result : Nat) : State :=
  let n := BitVec.ofNat 32 L.man.shards.length
  let old := fun (q : Nat × Option Nat × Bool × Nat × Nat) => q.1 == L.part && q.2.1 == L.slot && q.2.2.1 == L.copy
  let s1 := { s with house := { s.house with scrubs := s.house.scrubs.filter fun q => !old q } }
  let s2 := (L.shards.zip L.man.shards).foldl (fun (s : State) (xe : ShardRun × ShardEntry) =>
    if xe.1.st == .fetching then s.askSource L.part xe.2 xe.1.source else s) s1
  assignEngines (s2.setRn w { s2.rn w with busy := true, total := n, done := 0, result := BitVec.ofNat 32 result, load := some L,
                                           made := some (L.part, L.slot, L.copy, result) })

/-- The mark of a line whose load into a copy was given up (R344). -/
def stopMark (p : Nat) (slot : Option Nat) (copy : Bool) : Nat :=
  32768 + p + 16 * (if copy then 1 else 0) + 32 * ((slot.map (· + 1)).getD 0)

def LowAccess.marked (m : Nat) (a : LowAccess) : Bool := a.ack == some m
def Flit.marked (m : Nat) (f : Flit) : Bool :=
  match f.body with
  | .line a => a.marked m
  | _ => false

/-- A copy is still being written with lines of a load that was given up: they are under way, or wait at a tier port (R344). -/
def stillWritten (s : State) (p : Nat) (slot : Option Nat) (copy : Bool) : Bool :=
  let m := stopMark p slot copy
  (s.part p).lineSent.any (Flit.marked m) || s.tiles.any fun kv => kv.2.low.any (LowAccess.marked m)

/-- LOAD_GEN (R337, R345, R346, R351). -/
def loadGen (s : State) (w : WinId) (m : ManifestData) : State :=
  let R := s.rn w.val
  let p := (R.part.extractLsb' 0 4).toNat
  let P := s.part p
  let copy := match P.currentGen with
    | some (c, _) => !c
    | none => false
  if w.val != 0 then s.endRnd w.val 8
  else match P.image with
  | none => s.endRnd w.val 1
  | some img =>
    if !P.loaded || P.role == 2 then s.endRnd w.val 1
    else match manifestStatus s m 0 with
      | some c => s.endRnd w.val c
      | none =>
        if m.digest != img.header.manifestDigest then s.endRnd w.val 4
        else if !(recordsFit m (img.weights.lines.map fun x => (x.shard, x.offset, x.packing, x.count))) then s.endRnd w.val 0xC
        else if (P.gen copy).isSome || P.namesCopy copy || stillWritten s p none copy then s.endRnd w.val 6
        else if !mastersFit s m then s.endRnd w.val 7
        else
          let g : Gen := { no := P.genCount + 1, man := m, window := w.val, policy := R.flags.getLsbD 0, switchAt := R.switchAt.toNat }
          startLoad (s.setPart p (P.setGen copy (some g))) w.val
            { part := p, slot := none, copy := copy, man := m, shards := m.shards.map (shardStart s) } (P.genCount + 1)

/-- A load that starts makes what the window's last load made no more than an earlier one's (R360). -/
def forgetMade (s : State) (w : Nat) : State := s.setRn w { s.rn w with made := none }

def execLoadGen (w : WinId) (m : ManifestFile) (s : State) : Out :=
  .next (rndCommand s w fun s => loadGen (forgetMade s w.val) w (manifestOf m (s.rn w.val).len.toNat))

/-- The next slot generation number: it skips 0 (R356). -/
def nextSlotGen (n : Nat) : Nat := if (n + 1) % 65536 = 0 then 1 else (n + 1) % 65536

/-- LOAD_ADAPTER (R356, R357). -/
def loadAdapter (s : State) (w : WinId) (m : ManifestData) : State :=
  let R := s.rn w.val
  let p := (R.part.extractLsb' 0 4).toNat
  let j := (R.part.extractLsb' 16 10).toNat
  let P := s.part p
  let x := P.slot j
  let copy := match x.current with
    | some (c, _) => !c
    | none => x.copy0.isSome
  let placed := fun (i : Nat) => match P.image with
    | some img => match img.weights.layout with
      | some lay => img.weights.adapters.any fun a => a.shard == i && a.group == j % lay.groups
      | none => false
    | none => false
  if !((w.val == 0 || (s.vif w.val).partMask.getLsbD p) && (x.owner.isNone || x.owner == some w.val || w.val == 0)) then
    s.endRnd w.val 8
  else if !P.loaded || P.role == 2 then s.endRnd w.val 1
  else match manifestStatus s m 1 with
    | some c => s.endRnd w.val c
    | none =>
      let recs := match P.image with
        | some img => match img.weights.layout with
          | some lay => (img.weights.adapters.filter fun a => a.group == j % lay.groups).map fun a => (a.shard, a.offset, lay.packing, a.count)
          | none => []
        | none => []
      if 64 < m.vocab || !((List.range m.shards.length).all placed) || !recordsFit m recs then s.endRnd w.val 0xC
      else if (x.gen copy).isSome || P.namesSlot j copy || stillWritten s p (some j) copy then s.endRnd w.val 6
      else if !mastersFit s m then s.endRnd w.val 7
      else
        let no := nextSlotGen x.count
        let x1 := { x.setGen copy (some { no := no, man := m, window := w.val }) with
          owner := some (x.owner.getD w.val), retired := false }
        startLoad (s.setPart p (P.setSlot j x1)) w.val
          { part := p, slot := some j, copy := copy, man := m, shards := m.shards.map (shardStart s) } no

def execLoadAdapter (w : WinId) (m : ManifestFile) (s : State) : Out :=
  .next (rndCommand s w fun s => loadAdapter (forgetMade s w.val) w (manifestOf m (s.rn w.val).len.toNat))

/-- RETIRE_ADAPTER: the slot is not resident for new rows from the next boundary. Its generations include one that has not switched yet,
which never does (R359; DESIGN CHOICE, log entry 117). -/
def execRetireAdapter (w : WinId) (s : State) : Out :=
  .next (rndCommand s w fun s =>
    let R := s.rn w.val
    let p := (R.part.extractLsb' 0 4).toNat
    let j := (R.part.extractLsb' 16 10).toNat
    let P := s.part p
    let x := P.slot j
    if !((w.val == 0 || (s.vif w.val).partMask.getLsbD p) && (x.owner == some w.val || w.val == 0)) then s.endRnd w.val 8
    else
      let end_ := fun (g : SlotGen) => { g with dead := !g.switched }
      (s.setPart p (P.setSlot j { x with retiring := true, copy0 := x.copy0.map end_, copy1 := x.copy1.map end_ })).endRnd w.val 0)

def LowAccess.remark (m n : Nat) (a : LowAccess) : LowAccess := if a.marked m then { a with ack := some n } else a
def Flit.remark (m n : Nat) (f : Flit) : Flit :=
  match f.body with
  | .line a => { f with body := .line (a.remark m n) }
  | _ => f

/-- A window's load is given up: its lines that wait in the rim are dropped; those under way and at the tier ports are still written, and
the copy is free when they are (R344). -/
def stopLines (s : State) (w : Nat) (L : Load) : State :=
  let m := 16384 + w
  let n := stopMark L.part L.slot L.copy
  let s1 := s.mapPart L.part fun P => { P with
    weightOut := P.weightOut.filter fun f => !f.marked m, lineSent := P.lineSent.map (Flit.remark m n) }
  { s1 with tiles := s1.tiles.map fun kv => (kv.1, { kv.2 with
      low := kv.2.low.map (LowAccess.remark m n)
      fifo := kv.2.fifo.map fun q => (q.1, q.2.map (Flit.remark m n))
      skid := kv.2.skid.map fun k => { k with flit := k.flit.remark m n } }) }

/-- Discards the generation that a window's load was making; what it wrote is never named (R344). Its engines go to shards that wait. -/
def discardLoad (s : State) (w : Nat) (L : Load) : State :=
  let s1 := (stopLines (giveEngines s w fun _ => true) w L).mapPart L.part fun P => match L.slot with
    | none => P.setGen L.copy none
    | some j => P.setSlot j ((P.slot j).setGen L.copy none)
  assignEngines (s1.setRn w { s1.rn w with load := none })

/-- The generation that the window's last load made, verified and not switched (R360). -/
def unswitched (s : State) (w : Nat) : Option (Nat × Option Nat × Bool) :=
  match (s.rn w).made with
  | none => none
  | some (p, slot, c, no) =>
    let P := s.part p
    let waits := match slot with
      | none => match P.gen c with
        | some g => g.no == no && g.window == w && g.ready && !g.switched
        | none => false
      | some j => match (P.slot j).gen c with
        | some g => g.no == no && g.window == w && g.ready && !g.switched && !g.dead
        | none => false
    if waits then some (p, slot, c) else none

/-- ABORT (R360, Table 10.7). -/
def execAbort (w : WinId) (s : State) : Out :=
  let R := s.rn w.val
  if !pageShown s w.val pageRnd then .next s
  else match R.load with
  | some L => .next ((discardLoad s w.val L).endRnd w.val 0xA)
  | none =>
    if R.busy then .next (s.raiseRnd w.val 2 false)
    else match unswitched s w.val with
      | some (p, none, c) => .next ((s.mapPart p fun P => P.setGen c none).endRnd w.val 0xA)
      | some (p, some j, c) => .next ((s.mapPart p fun P => P.setSlot j ((P.slot j).setGen c none)).endRnd w.val 0xA)
      | none => .next (s.endRnd w.val 1)

/-! ### Shards (R341–R343) -/

def Load.setShard (L : Load) (i : Nat) (x : ShardRun) : Load := { L with shards := L.shards.set i x }

/-- A fetch of a shard fails: it starts again from the next used source; the fifth failure ends the command (R343). -/
def shardFails (s : State) (w i : Nat) : State :=
  match (s.rn w).load with
  | none => s
  | some L =>
    match L.shards[i]?, L.man.shards[i]? with
    | some x, some e =>
      let s := giveEngine s w i
      if 5 ≤ x.attempts then (discardLoad s w L).endRnd w 5
      else
        let k := nextSource e (x.source + 1)
        let L1 := L.setShard i { st := .fetching, attempts := x.attempts + 1, source := k }
        (((assignEngines (s.setRn w { s.rn w with load := some L1 })).askSource L.part e k).countPart L.part ctrShardRetry 1).raiseRnd w 3 true
    | _, _ => s

/-! ### The badger (R352–R355) -/

/-- The manifest of a resident shard's generation in a copy. -/
def residentManifest (P : Partition) (slot : Option Nat) (copy : Bool) : Option ManifestData :=
  match slot with
  | none => match P.gen copy with
    | some g => if g.switched then some g.man else none
    | none => none
  | some j => match (P.slot j).gen copy with
    | some g => if g.switched then some g.man else none
    | none => none

/-- Last good scrub of a shard; 0 when it was never scrubbed clean. -/
def lastScrub (s : State) (p : Nat) (slot : Option Nat) (copy : Bool) (shard : Nat) : Nat :=
  ((s.house.scrubs.find? fun q => q.1 == p && q.2.1 == slot && q.2.2.1 == copy && q.2.2.2.1 == shard).map (·.2.2.2.2)).getD 0

/-- SCRUB_MISMATCH in the physical function's page, and the slot owner's for an adapter shard (Table 10.15). -/
def raiseScrub (s : State) (p : Nat) (slot : Option Nat) : State :=
  let s1 := s.raiseIn 0 pageRnd 4
  match slot with
  | none => s1
  | some j => match ((s.part p).slot j).owner with
    | some w => if w = 0 then s1 else s1.raiseIn w pageRnd 4
    | none => s1

/-- The 768 data bytes of an L3 record from a line's 4-bit fields: their low three bits (R336). -/
def l3Bytes (data : List Byte) : List Byte :=
  let bit := fun n => ((data.getD (n / 3 / 2) 0).getLsbD (4 * (n / 3 % 2) + n % 3)).toNat
  (List.range 768).map fun k => BitVec.ofNat 8 ((List.range 8).foldl (fun v b => v + bit (8 * k + b) * 2 ^ b) 0)

/-- The record of a line: `unpackLine` inverted (R335, R336, R352). -/
def packLine (packing : Nat) (ln : Line) : List Byte :=
  if packing = 1 then l3Bytes ln.data ++ ln.side.take 64
  else if packing = 0 then ln.data ++ ln.side.take 64
  else ln.data ++ ln.side

/-- `r` in place of the bytes from o on. -/
def overlay (bs : List Byte) (o : Nat) (r : List Byte) : List Byte := bs.take o ++ r ++ bs.drop (o + r.length)

/-- A shard as its lines in a copy hold it (R352). Bytes that no record covers are the master's (log entry 27). -/
def waferShard (s : State) (p : Nat) (slot : Option Nat) (copy : Bool) (shard : Nat) (e : ShardEntry) : List Byte :=
  let bytes := padTo e.length (((s.master e.digest).map (·.bytes)).getD [])
  (shardPlaces (s.part p) slot copy shard).foldl (fun bs q => match tileAt q.tile with
    | some t => ((List.range q.lines.length).zip q.lines).foldl (fun bs il =>
        overlay bs (q.offset + recordLen q.packing * il.1) (packLine q.packing ((s.tile t).line il.2))) bs
    | none => bs) bytes

/-- The shards that the badger visits: those of every generation that has switched and is not retired (R352). -/
def residentShards (s : State) : Nat :=
  s.parts.foldl (fun n kv =>
    let gens := [kv.2.copy0, kv.2.copy1].filterMap id
    let slots := kv.2.slots.flatMap fun jx => [jx.2.copy0, jx.2.copy1].filterMap id
    n + ((gens.filter (·.switched)).map (·.man.shards.length)).sum + ((slots.filter (·.switched)).map (·.man.shards.length)).sum) 0

/-- The badger's interval in ns. -/
def badgerNs (s : State) : Nat := s.house.interval * 1000000000

/-- At the end of an interval the next one starts. -/
def badgerRound (s : State) : State :=
  let H := s.house
  if H.roundAt + badgerNs s ≤ s.ns then
    { s with house := { H with roundAt := H.roundAt + badgerNs s * ((s.ns - H.roundAt) / badgerNs s), visited := [] } }
  else s

/-- A shard's visit is due: once in each interval, the visits spread evenly across it (R352). -/
def visitDue (s : State) (key : Nat × Option Nat × Bool × Nat) : Bool :=
  let H := s.house
  !H.visited.contains key && decide (H.roundAt + H.visited.length * badgerNs s / max 1 (residentShards s) ≤ s.ns)

/-- A resident shard's lines are read and hashed, and its master is hashed again: both good notes the time; a bad one starts a repair
(R352, R353). -/
def visitShard (s : State) (p : Nat) (j : Option Nat) (copy : Bool) (shard : Nat) (e : ShardEntry) : State :=
  let H := { s.house with visited := s.house.visited ++ [(p, j, copy, shard)] }
  let lines := Config.sha384 (waferShard s p j copy shard e) == e.digest
  let master := s.masterHolds e.digest
  let key := fun (q : Nat × Option Nat × Bool × Nat × Nat) => q.1 == p && q.2.1 == j && q.2.2.1 == copy && q.2.2.2.1 == shard
  if lines && master then
    { s with house := { H with scrubs := (H.scrubs.filter fun q => !key q) ++ [(p, j, copy, shard, s.ns)] } }
  else if H.repairs.any fun r => r.part == p && r.slot == j && r.copy == copy && r.shard == shard then { s with house := H }
  else
    let rep : Repair := { part := p, slot := j, copy := copy, shard := shard, digest := e.digest, refetch := !master, lines := !lines,
                          source := nextSource e 0, start := lastScrub s p j copy shard, stop := s.ns }
    let s1 := { s with house := { H with repairs := H.repairs ++ [rep] } }
    if rep.refetch then (s1.dropMaster e.digest).askSource p e rep.source else s1

/-- Every shard of a manifest is visited. -/
def visitManifest (s : State) (p : Nat) (j : Option Nat) (copy : Bool) : State :=
  match residentManifest (s.part p) j copy with
  | none => s
  | some m => ((List.range m.shards.length).zip m.shards).foldl (fun s ie => visitShard s p j copy ie.1 ie.2) s

/-- Every resident shard of a partition is visited (Table 14.4). -/
def visitAll (s : State) (p : Nat) : State :=
  ((s.part p).slots.map (·.1)).foldl (fun s j => visitManifest (visitManifest s p (some j) false) p (some j) true)
    (visitManifest (visitManifest s p none false) p none true)

/-- The badger visits a shard whose turn has come, on free engines: one hashes its lines and one its master (log entry 27). -/
def execBadgerVisit (p : PartId) (slot : Option (Fin 1024)) (copy : Bool) (shard : Nat) (k m : Fin 64) (s : State) : Out :=
  let s := badgerRound s
  let j := slot.map (·.val)
  match (residentManifest (s.part p.val) j copy).bind fun m => m.shards[shard]? with
  | none => .next s
  | some e =>
    if !visitDue s (p.val, j, copy, shard) || FMap.get none s.house.engines k.val != none || FMap.get none s.house.engines m.val != none then
      .next s
    else .next (visitShard s p.val j copy shard e)

/-- The manifest of the generation in a copy, resident or not yet switched. -/
def heldManifest (P : Partition) (slot : Option Nat) (copy : Bool) : Option ManifestData :=
  match slot with
  | none => (P.gen copy).map (·.man)
  | some j => ((P.slot j).gen copy).map (·.man)

/-- The lines of a shard in a copy, with their tiles, as its master has them. -/
def shardLines (s : State) (p : Nat) (slot : Option Nat) (copy : Bool) (shard : Nat) : List (TileAddr × Nat × List Byte × List Byte) :=
  let P := s.part p
  match ((heldManifest P slot copy).bind fun m => m.shards[shard]?).bind fun e => s.master e.digest with
  | none => []
  | some m => (shardPlaces P slot copy shard).flatMap fun q => match tileAt q.tile with
    | some t => (placeLines m.bytes q).map fun l => (t, l)
    | none => []

/-- Rewrites a shard's lines in a copy from its master, in a partition whose tiles stand still (R406, R419). -/
def rewriteShard (s : State) (p : Nat) (slot : Option Nat) (copy : Bool) (shard : Nat) : State :=
  (shardLines s p slot copy shard).foldl (fun (s : State) (l : TileAddr × Nat × List Byte × List Byte) =>
    s.mapTile l.1 fun T => T.setLine l.2.1 l.2.2.1 (some l.2.2.2)) s

/-- Sets a shard's lines out for the tier ports of a partition that runs, at P3 through the rim gate (Table 1.2, R341, R353). -/
def sendShard (s : State) (p : Nat) (slot : Option Nat) (copy : Bool) (shard who : Nat) : State :=
  (shardLines s p slot copy shard).foldl (fun (s : State) (l : TileAddr × Nat × List Byte × List Byte) =>
    writeLow s p (tileKey l.1) 3 l.2.1 l.2.2.1 l.2.2.2 (some who)) s

/-- Queues a suspect-window report; beyond 16 waiting it is dropped (R355). -/
def queueReport (s : State) (R : Report) : State :=
  let H := s.house
  if 16 ≤ H.reports.length then (s.countPart R.part ctrLogDrop 1).raiseIn 0 pageRnd 9
  else { s with house := { H with reports := H.reports ++ [{ R with no := H.reportNo }], reportNo := H.reportNo + 1 } }

/-- Steps that name the copy have left the pipeline, and no new ones close: the lines are rewritten from the verified master through the rim
gate, the rows of the window reported (R353, R354). Manifests that name the copy close again once the last line is written; a partition's
repairs are made one after the other. A held partition is repaired after its restart (Table 12.4). -/
def execScrubRepair (p : PartId) (s : State) : Out :=
  match s.house.repairs.find? fun r => r.part == p.val && r.lines && !r.refetch with
  | none => .next s
  | some r =>
    let P := s.part p.val
    let named := match r.slot with
      | none => P.namesCopy r.copy
      | some j => P.namesSlot j r.copy
    let digest := ((residentManifest P r.slot r.copy).bind fun m => m.shards[r.shard]?).map (·.digest)
    let noMaster := match digest with
      | some d => !s.goodMaster d
      | none => false
    let writing := s.house.repairs.any fun q => q.part == p.val && q.left.isSome
    if named || P.rstate != 0 || noMaster || writing then .next s
    else
      let n := (shardLines s p.val r.slot r.copy r.shard).length
      let s1 := sendShard s p.val r.slot r.copy r.shard (repairMark p.val)
      let begun := fun (q : Repair) => if q = r then { r with left := some n } else q
      let s2 := { s1 with house := { s1.house with
        repairs := if n = 0 then s1.house.repairs.erase r else s1.house.repairs.map begun } }
      let s3 := raiseScrub (s2.countPart p.val ctrScrub 1) p.val r.slot
      let window := s.house.carried.filter fun c => c.part == p.val && decide (r.start ≤ c.close) && decide (c.close ≤ r.stop)
      let steps := (window.filter fun c => c.copy == r.copy).map (·.step)
      let rows := ((window.filter fun c => match r.slot with
        | none => steps.contains c.step
        | some j => c.slot == some (j, r.copy)).map (·.row)).eraseDups
      let gen : Word := match r.slot with
        | none => BitVec.ofNat 32 (((P.gen r.copy).map (·.no)).getD 0)
        | some j => BitVec.ofNat 32 (65536 * j + ((((P.slot j).gen r.copy).map (·.no)).getD 0))
      .next (queueReport s3 { part := p.val, adapter := r.slot.isSome, shard := r.shard, gen := gen, no := 0, start := r.start,
                              stop := r.stop, rows := rows })

/-- The rows of a report, 16 to an entry; a report with none has one entry. -/
def rowGroups : Nat → List Nat → List (List Nat)
  | 0, _ => []
  | fuel + 1, rs => if rs.length ≤ 16 then [rs] else rs.take 16 :: rowGroups fuel (rs.drop 16)

/-- One scrub log entry without its phase bit (Table 10.8). -/
def logEntry (R : Report) (first last : Bool) (rs : List Nat) (phase : Bool) : List Byte :=
  bytesLE 1 (if first then 1 else 2) ++ bytesLE 1 R.part ++
  bytesLE 2 ((if R.adapter then 1 else 0) + (if last then 2 else 0) + (if phase then 32768 else 0)) ++
  bytesLE 4 R.shard ++ bytesLE 4 R.gen.toNat ++ bytesLE 2 rs.length ++ bytesLE 2 R.no ++ bytesLE 8 R.start ++ bytesLE 8 R.stop ++
  padTo 32 (rs.flatMap fun r => bytesLE 2 r)

/-- log2size of the scrub log as used. -/
def logSize (g : Ring) : Nat := max 4 (min 16 g.log2size)

/-- The entries of the oldest waiting report are written as the log has room for them (R355). -/
def execScrubLogWrite (s : State) : Out :=
  let H := s.house
  let g := H.log
  match H.reports with
  | [] => .next s
  | R :: rest =>
    let gs := rowGroups (R.rows.length + 1) R.rows
    let n := min (gs.length - R.written) (2 ^ logSize g - (g.produced - g.consumed).toNat)
    if !g.enable || n = 0 || !hostReady s 0 then .next s
    else
      let jobs := (((List.range gs.length).zip gs).drop R.written).take n
      let posts := jobs.map fun ir =>
        let p := g.produced.toNat + (ir.1 - R.written)
        (g.base.toNat + 64 * (p % 2 ^ logSize g),
         logEntry R (ir.1 == 0) (ir.1 + 1 == gs.length) ir.2 ((p / 2 ^ logSize g) % 2 == 0))
      .next { s with
        house := { H with reports := if R.written + n = gs.length then rest else { R with written := R.written + n } :: rest
                          log := { g with produced := g.produced + BitVec.ofNat 32 n } }
        host := { s.host with posted := s.host.posted ++ posts } }

end Sys2Proof.Machine
end

