-- ==== Sys2Proof/Machine/Image.lean ====
section
/-! DEFINITION. The load checks of a build image (R233, R244–R252, R299, R329, R385, R506, Table 7.11). -/
namespace Sys2Proof.Machine

/-- The lists hold the same values, the first none twice. -/
def samePlaces (a b : List Nat) : Bool := a.length == b.length && a.eraseDups.length == a.length && a.all b.contains

/-! ### Routes (R225, R231, R233) -/

/-- Code of a router region for a destination region; the lost region is LOST everywhere. Of two triples that name the same entry the later
one stands, as they are written one after the other (log entry 108). -/
def routeCode (ts : List RouteTriple) (lost : Option Nat) (r d : Nat) : Nat :=
  if lost = some d then 5
  else ((ts.reverse.find? fun t => t.router == r && t.dest == d).map fun t => t.code.toNat).getD 0

/-- The output of a router for a flit to `dst`; none for a LOST entry. -/
def nextPort (ts : List RouteTriple) (lost : Option Nat) (t dst : TileAddr) : Option Port :=
  let e := routeCode ts lost (regionOf t) (regionOf dst)
  if e = 5 then none
  else match codePort e with
    | some p => some p
    | none =>
      if t.col ≠ dst.col then some (if t.col < dst.col then .east else .west)
      else some (if t.row < dst.row then .north else .south)

/-- The hops of a route; none when it does not reach its target inside `ok`. -/
def follow (ts : List RouteTriple) (lost : Option Nat) (ok : List Nat) (dst : TileAddr) : Nat → TileAddr → Option (List (Nat × Nat))
  | 0, _ => none
  | fuel + 1, t =>
    if t = dst then some []
    else match nextPort ts lost t dst with
      | none => none
      | some p => match neighbour t p with
        | none => none
        | some u =>
          if ok.contains (tileKey u) then (follow ts lost ok dst fuel u).map fun hs => (tileKey t, portNo p) :: hs else none

/-- Consecutive hops of a route: its dependencies between channel FIFOs. -/
def deps : List (Nat × Nat) → List ((Nat × Nat) × (Nat × Nat))
  | a :: b :: rest => (a, b) :: deps (b :: rest)
  | _ => []

/-- No cycle: FIFOs that nothing depends on are taken away until none is left (R233). -/
def acyclic : Nat → List ((Nat × Nat) × (Nat × Nat)) → Bool
  | 0, es => es.isEmpty
  | fuel + 1, es =>
    let es' := es.filter fun e => es.any fun f => f.2 == e.1
    if es'.length = es.length then es.isEmpty else acyclic fuel es'

/-- R233: every code is one of Table 7.1, and every route from every tile in service to every such tile ends at its target, inside the
partition. The default tables always pass; under a diversion plan they are followed too. -/
def routesPass (ts : List RouteTriple) (lost : Option Nat) (tiles : List Nat) : Bool :=
  (ts.isEmpty && lost.isNone) ||
  (ts.all (fun t => t.code.toNat ≤ 5 && t.router < 144 && t.dest < 144) && let places := tiles.filterMap tileAt
   let hops := places.flatMap fun a => places.map fun b => follow ts lost tiles b 200000 a
   hops.all (·.isSome) &&
   (let es := (hops.filterMap id).flatMap deps
    acyclic (es.length + 1) es.eraseDups))

/-! ### Parts of an image -/

/-- What a plan leaves of an image (R247): programs, plans and initial values of named tiles replaced, service records that name
other tiles in their place, weights and routes added. -/
def mergeService (old new : List ServiceRec) : List ServiceRec :=
  let kept := old.filter fun o => !new.any fun n => match o, n with
    | .footprint a .., .footprint b .. => a == b
    | .embedding _, .embedding _ => true
    | .head .., .head .. => true
    | .draftLink a .., .draftLink b .. => a == b
    | .pageLayout .., .pageLayout .. => true
    | .store _, .store _ => true
    | _, _ => false
  kept ++ new

def mergePlan (img : ImageData) (d : DivPlan) : ImageData :=
  let gone := fun (w : Word) => match tileAt w.toNat with
    | some t => regionOf t == d.region
    | none => false
  { img with
    programs := (img.programs.filter fun p => !gone p.tile && !d.programs.any fun q => q.tile == p.tile) ++ d.programs
    plans := (img.plans.filter fun p => !gone p.tile && !d.plans.any fun q => q.tile == p.tile) ++ d.plans
    inits := (img.inits.filter fun p => !gone p.tile && !d.inits.any fun q => q.tile == p.tile) ++ d.inits
    weights := { img.weights with lines := (img.weights.lines.filter fun x => !gone x.tile) ++ d.weights.lines
                                  adapters := (img.weights.adapters.filter fun x => !gone x.tile) ++ d.weights.adapters }
    routes := (img.routes.filter fun r => !d.routes.any fun q => q.router == r.router && q.dest == r.dest) ++ d.routes
    service := mergeService img.service d.service
    header := { img.header with
      entryTile := d.entryTile.getD img.header.entryTile
      gateTile := d.gateTile.getD img.header.gateTile
      stepInterval := if img.header.mode = 1 then d.stepInterval else img.header.stepInterval } }

/-- Place of a section type in the directory, plus one; 0 when absent (R506). -/
def sectionNo (img : ImageData) (kind index : Nat) : Nat :=
  match img.secs.findIdx? fun e => e.kind == kind && (kind != 9 || e.index == index) with
  | some i => i + 1
  | none => 0

def hasSection (img : ImageData) (kind : Nat) : Bool := img.secs.any fun e => e.kind == kind

/-! ### Checks 1 to 7 -/

/-- Directory faults: the entry that fails first, plus one. An entry whose type stands in no line of Table 7.6 fails here too (DESIGN
CHOICE, log entry 108: the spec names no check for it). -/
def badEntry (img : ImageData) : Option Nat :=
  let n := img.secs.length
  (((List.range n).zip img.secs).find? fun ie =>
    let e := ie.2
    let prev := if ie.1 = 0 then 512 + 32 * n else match img.secs[ie.1 - 1]? with
      | some q => q.offset + q.length
      | none => 0
    e.offset % 4096 != 0 || e.offset < prev || img.header.imageLen < e.offset + e.length + 128 || !e.reservedZero ||
    e.kind == 0 || 9 < e.kind ||
    (img.secs.take ie.1).any fun q => q.kind == e.kind && (e.kind != 9 || q.index == e.index)).map fun ie => ie.1 + 1

/-- Check 4. -/
def rectOk (s : State) (p : Nat) (h : ImageHeader) : Bool :=
  1 ≤ h.width && 1 ≤ h.height && h.gx0 + h.width ≤ 12 && h.gy0 + h.height ≤ 12 &&
  (let rs := rectRegions h.gx0 h.gy0 h.width h.height
   rs.any (fun r => r / 12 == 0 || r / 12 == 11 || r % 12 == 0 || r % 12 == 11) &&
   rs.all (fun r => (s.region r).inService) &&
   s.parts.all fun kv => kv.1 == p || !(kv.2.image.isSome || kv.2.quarantine) || kv.2.regions.all fun r => !rs.contains r)

/-- Check 6: required sections of the role (Table 7.6); an exact-mode image without ISSUE_PLANS fails check 9 (Table 7.19). -/
def sectionsOk (img : ImageData) : Bool :=
  img.header.arith ≤ 1 && img.header.role ≤ 2 && hasSection img 1 && hasSection img 3 && hasSection img 5 && hasSection img 6 &&
  (img.header.role == 2 || hasSection img 4)

/-! ### Checks 8 to 14: on an image or on what a plan leaves of it -/

/-- Check 8. -/
def programsOk (img : ImageData) (tiles : List Nat) : Bool :=
  samePlaces (img.programs.map fun p => p.tile.toNat) tiles &&
  img.programs.all fun p => 1 ≤ p.words.length && p.words.length ≤ 2048 && p.words.all wordLegal

/-- Check 9. -/
def plansOk (img : ImageData) (tiles : List Nat) : Bool :=
  if img.header.mode = 1 then
    samePlaces (img.plans.map fun p => p.tile.toNat) tiles &&
    img.plans.all fun p => match img.programs.find? fun q => q.tile == p.tile with
      | some q => q.words.length == p.delays.length
      | none => false
  else img.plans.isEmpty && !hasSection img 2

/-- Barriers that a program names with BARA or BARW (opcodes 0x25 and 0x26). -/
def barriersOf (ps : List ProgRec) : List Nat :=
  (ps.flatMap fun p => p.words.filterMap fun w =>
    if opcodeOf w == 0x25 || opcodeOf w == 0x26 then some (w.toNat % 32) else none).eraseDups

/-- Check 10. -/
def initsOk (img : ImageData) (tiles : List Nat) : Bool :=
  samePlaces (img.inits.map fun p => p.tile.toNat) tiles &&
  (barriersOf (img.programs ++ img.divs.flatMap (·.programs))).all fun b => img.inits.any fun i => i.barMember.getLsbD b

/-- The Page layout record under R299. -/
def layoutOk (img : ImageData) : Bool :=
  match img.service.filterMap fun
    | .pageLayout n k b st => some (n, k, b, st)
    | _ => none with
  | [(n, k, b, st)] =>
    let ext := if k = 1 then 544 * img.groups else 272 * img.groups
    1 ≤ n && n ≤ 8 && 272 * img.groups ≤ st && (k == (if 544 * img.groups ≤ st then 1 else 0)) &&
    (List.range n).all fun i => decide (b + st * i + ext ≤ 12288)
  | _ => false

/-- The Store record under R329. -/
def storeOk (img : ImageData) (tiles : List Nat) : Bool :=
  match img.service with
  | [.store rs] =>
    let ts := rs.flatMap fun r => (List.range r.h).flatMap fun j => (List.range r.w).map fun i => (r.col + i) * 512 + (r.row + j)
    1 ≤ rs.length && rs.length ≤ 8190 && rs.all (fun r => decide (r.col + r.w ≤ 336) && decide (r.row + r.h ≤ 324)) &&
    ts.all tiles.contains && ts.eraseDups.length == ts.length && ts.all fun t => !(areaRuns img t 5).isEmpty
  | _ => false

/-- Tiles that the service records name. -/
def serviceTiles (img : ImageData) : List Nat :=
  img.service.flatMap fun
    | .footprint _ c p q => (c :: p ++ q).map (·.toNat)
    | .embedding ts => ts.map (·.toNat)
    | .head ts w => (ts ++ [w]).map (·.toNat)
    | _ => []

def onEdge (w : Nat) : Bool :=
  match tileAt w with
  | some t => t.col.val == 0 || t.col.val == 335 || t.row.val == 0 || t.row.val == 323
  | none => false

/-- Check 11. -/
def serviceOk (img : ImageData) (tiles : List Nat) : Bool :=
  let layers := img.service.filterMap fun
    | .footprint l .. => some l
    | _ => none
  tiles.contains img.header.entryTile.toNat && tiles.contains img.header.gateTile.toNat && onEdge img.header.gateTile.toNat &&
  (serviceTiles img).all tiles.contains &&
  (if img.header.role = 2 then storeOk img tiles
   else samePlaces layers (List.range layers.length) &&
     (img.service.filter fun | .embedding _ => true | _ => false).length == 1 &&
     (img.service.filter fun | .head .. => true | _ => false).length == 1 &&
     !img.service.any (fun | .store _ => true | _ => false) && layoutOk img)

/-- Check 12, areas: disjoint, within the column; a tile's copy 0 lines have as many lines of copy 1 beside them, so that every one of
them has its place there (R255). -/
def areasOk (img : ImageData) (tiles : List Nat) : Bool :=
  img.areas.all (fun a => a.kind ≤ 6) && tiles.all fun t =>
    let as_ := areasOf img t
    as_.all (fun a => decide (a.first + a.count ≤ 8192)) &&
    ((List.range as_.length).zip as_).all (fun ia => (as_.drop (ia.1 + 1)).all fun b =>
      decide (ia.2.first + ia.2.count ≤ b.first) || decide (b.first + b.count ≤ ia.2.first)) &&
    [0, 2].all fun k => decide (runsSize (areaRuns img t k) ≤ runsSize (areaRuns img t (k + 1)))

/-- Check 12, weights: records inside kind 0 or 2 areas, whole areas covered, adapter lines placed (R337). -/
def weightsOk (img : ImageData) (tiles : List Nat) : Bool :=
  img.weights.lines.all (fun x => x.packing ≤ 2 && (x.area == 0 || x.area == 2) && 1 ≤ x.count && tiles.contains x.tile.toNat &&
    decide (x.line + x.count ≤ runsSize (areaRuns img x.tile.toNat x.area))) &&
  (match img.weights.layout with
   | none => img.weights.adapters.isEmpty
   | some lay =>
     1 ≤ lay.groups && lay.groups ≤ 1024 && 1 ≤ lay.stride && lay.stride ≤ 64 && lay.packing ≤ 2 &&
     img.weights.adapters.all fun x => x.group < lay.groups && tiles.contains x.tile.toNat && 1 ≤ x.count &&
       decide (x.line + x.count ≤ lay.stride) &&
       (match (areaRuns img x.tile.toNat 4).head? with
        | some a => decide (lay.stride * 2 * cdiv (1024 - x.group) lay.groups ≤ a.2)
        | none => false))

/-- Check 15 (R381, R385). -/
def timetableOk (s : State) (p : Nat) (img : ImageData) : Bool :=
  let L := fun n => s.port n
  !(s.hall.addr == 0 && (hasSection img 7 || img.service.any fun | .draftLink .. => true | _ => false)) &&
  img.slots.all (fun q => q.port < 48 && q.slot < 1024 && q.slot % 32 != 0 && FMap.get none (L q.port).owners q.slot == some p) &&
  img.outRoutes.all (fun r => r.index < 4096 && img.slots.any fun q => q.port == r.port) &&
  (img.outRoutes.map (·.index)).eraseDups.length == img.outRoutes.length

def draftSlotsOk (img : ImageData) : Bool :=
  img.service.all fun
    | .draftLink _ _ _ slots => slots.all fun ps => img.slots.any fun q => q.port == ps.1 && q.slot == ps.2
    | _ => true

/-- Checks 8 to 14 in order, as (code, section). -/
def bodyCheck (img : ImageData) (tiles : List Nat) (lost : Option Nat) : Nat × Nat :=
  if !programsOk img tiles then (0x08, sectionNo img 1 0)
  else if !plansOk img tiles then (0x09, sectionNo img 2 0)
  else if !initsOk img tiles then (0x0A, sectionNo img 3 0)
  else if !serviceOk img tiles then (0x0B, sectionNo img 6 0)
  else if !areasOk img tiles then (0x0C, sectionNo img 5 0)
  else if !weightsOk img tiles then (0x0C, sectionNo img 4 0)
  else if (img.header.role == 2) != (img.header.manifestDigest == 0) then (0x0D, 0)
  else if !routesPass img.routes lost tiles then (0x0E, sectionNo img 8 0)
  else (0, 0)

/-- Check 16: the first plan that fails. -/
def plansCheck (img : ImageData) : Option Nat :=
  let h := img.header
  (img.divs.find? fun d =>
    !(rectRegions h.gx0 h.gy0 h.width h.height).contains d.region ||
    (h.mode == 1 && d.stepInterval < h.stepInterval) ||
    (bodyCheck (mergePlan img d) (rectTiles h.gx0 h.gy0 h.width h.height (some d.region)) (some d.region)).1 != 0).map (·.region)

/-- The checks of Table 7.11 in order: refusal code and section, (0, 0) when the image passes. A header mode other than 0 and 1 fails
check 5 (DESIGN CHOICE, log entry 108: Table 7.11 names no check for it). -/
def imageCheck (s : State) (p : Nat) (len : Nat) (img : ImageData) : Nat × Nat :=
  let h := img.header
  let tiles := rectTiles h.gx0 h.gy0 h.width h.height none
  if h.magic != 0x4C573934 || h.format != 1 || h.imageLen != len || !h.reservedZero || len < 512 + 32 * img.secs.length + 128 then
    (0x03, 0)
  else match badEntry img with
  | some n => (0x03, n)
  | none =>
    if !keyOk s img.keyId 0 then (0x02, 0)
    else if !img.sigValid then (0x01, 0)
    else if !rectOk s p h then (0x04, 0)
    else if !(h.mode ≤ 1 && (if h.mode = 1 then h.width * h.height ≤ 16 && h.stepInterval != 0 else h.stepInterval == 0)) then (0x05, 0)
    else if !sectionsOk img then (0x06, 0)
    else if !(if h.mode = 1 then tiles.all fun t => match tileAt t with
        | some a => (s.tile a).deferMax == h.refreshDecl
        | none => false
      else h.refreshDecl == 0xFF) then (0x07, 0)
    else match bodyCheck img tiles none with
    | (0, _) =>
      if !timetableOk s p img then (0x0F, sectionNo img 7 0)
      else if !draftSlotsOk img then (0x0F, sectionNo img 6 0)
      else match plansCheck img with
        | some r => (0x10, sectionNo img 9 r)
        | none => (0, 0)
    | bad => bad

end Sys2Proof.Machine
end

