-- ==== Sys2Proof/Machine/Faults.lean ====
section
/-! DEFINITION. Recovery, restart, repairs and diversion (ch. 12). -/
namespace Sys2Proof.Machine

/-! ### RECOVERY_START (R407, R409) -/

/-- A recovery begins: fourth in a row halts with REPEAT; a second lost region halts too. The loss of the region that a diversion in force
goes round takes nothing more away. -/
def beginRecovery (s : State) (p : Nat) (region : Option Nat) : State :=
  let P := s.part p
  let fresh := P.streak = 0
  let region := region.filter fun r => P.lost != some r
  -- with no step unretired at the first of them no row of recoveries begins
  let P1 := { P with
    streak := if fresh && P.oldest = 0 then 0 else P.streak + 1
    streakStep := if fresh then P.oldest else P.streakStep
    recovering := true
    divert := region }
  let s1 := s.setPart p P1
  if 4 ≤ P1.streak then haltSafe s1 p 8
  else match region with
    | none => setRstate s1 p 1
    | some _ => if P.lost.isSome then haltSafe s1 p 6 else setRstate s1 p 2

/-- The controller takes the oldest queued record whose partition has no recovery running; one that names no partition, or none that holds
an image, is done with its record. In reset it takes none (R409, R422, Table 12.4). -/
def execRecoveryStart (s : State) : Out :=
  if s.sufinDown then .next s
  else match s.fltQ.find? fun x => x.state == 0 && (match x.part with
      | some p => !(s.part p).recovering
      | none => true) with
  | none => .next s
  | some x =>
    match x.part with
    | none => .next (settle (closeRecords s (· == x) 3 4))
    | some p =>
      if (s.part p).quarantine || !(s.part p).loaded then .next (settle (closeRecords s (· == x) 3 4))
      else if (s.part p).rstate = 3 then .next (settle (closeHalted s p))
      else if haltClass x.cls then
        .next (settle (closeHalted (haltSafe s p (if x.cls = 0x20 then 2 else if x.cls = 0x21 then 3 else 4)) p))
      else
        let s1 := { s with fltQ := s.fltQ.map fun y => if y = x then { y with state := 1 } else y }
        .next (settle (closeHalted (beginRecovery s1 p (if regionClass x.cls then x.region else none)) p))

/-! ### Start state (R205, R406) -/

/-- A tile at the start of a run: contents of column, side fields, scratchpad and stores stay, and the frame's counters; so do lines that
the rim has handed to the tier port (log entry 55). -/
def startState (T : Tile) : Tile :=
  { Tile.reset with
    part := T.part, starting := true, inService := T.inService, halted := false, prog := T.prog, plan := T.plan,
    column := T.column, side := T.side, pad := T.pad, refreshing := T.refreshing, owed := T.owed, deferMax := T.deferMax,
    burstDue := T.burstDue, low := T.low, reads := T.reads, writing := T.writing.filter (· != .queue), barMember := T.barMember, initCredit := T.initCredit, ctr := T.ctr, firstSlip := T.firstSlip,
    credit := ((List.range 16).zip T.initCredit).foldl (fun (m : FMap Byte) ib => FMap.set 0 m ib.1 ib.2) [] }

/-- Replaces every tile of a partition that is in service. -/
def mapTiles (s : State) (p : Nat) (g : Nat → Tile → Tile) : State :=
  let P := s.part p
  let keys := (rectTiles P.gx0 P.gy0 P.width P.height P.lost)
  keys.foldl (fun (s : State) k => match tileAt k with
    | some t => s.setTile t (g k (s.tile t))
    | none => s) s

/-- A flit of a message from a link: it waits in the rim through a purge (R406); manifests and notices are issued again. -/
def Flit.ofLink (f : Flit) : Bool :=
  match f.src with
  | .link _ => true
  | _ => false

/-- A token notice that has reached the Signal Box, of a step that has left the pipeline, is judged after the recovery: no step gives it
again (R266, R404; log entry 56). -/
def Partition.staysAtRim (P : Partition) (cf : Chan × Flit) : Bool :=
  match cf.2.body with
  | .token row _ _ _ => !P.inFlight row
  | _ => false

/-- The gating stagers of a partition's regions hold no tile: its naps have ended (R205, R208). -/
def clearStagers (s : State) (p : Nat) : State :=
  (s.part p).regions.foldl (fun (s : State) r => s.setRegion r { s.region r with entries := [], exits := [] }) s

/-- The notices still to come for a row whose steps are issued again: every one of its last decode or verify entry, and for a draft row
those of the steps closed before its last REQ (R285, R287, R406). -/
def Partition.notices (P : Partition) (r : Nat) (x : Row) : Row :=
  let steps := P.inflight.filterMap fun y => (y.man.entries.find? fun e => e.row == r && e.kind != 2).map fun e => (y.man.step, e.nPos)
  let old := (steps.filter fun a => decide (a.1 ≤ x.staleTo)).foldl (fun n a => n + a.2) 0
  match (steps.filter fun a => decide (x.staleTo < a.1)).getLast? with
  | some a => { x with stale := old, notices := a.2 }
  | none => { x with stale := old }

/-- Partition start: every tile in its start state, release senses, maximum and HOLD_CLK zero, one step credit, the unretired
manifests to be issued again, with the notices that they will give (R239, R406). -/
def startPartition (s : State) (p : Nat) : State :=
  let s0 := (s.part p).regions.foldl (fun (s : State) r => s.setRegion r { s.region r with refresh := 0 }) (clearStagers s p)
  let s1 := ((mapTiles s0 p fun _ T => startState T).rowsOf p).foldl (fun (s : State) (kv : Nat × Row) =>
    s.setRow kv.1 ((s.part p).notices kv.1 kv.2)) (mapTiles s0 p fun _ T => startState T)
  s1.mapPart p fun P => { P with
    running := true, frozen := false, release := 0, rootMax := 0, holdClk := 0, credits := 1, rimIn := P.rimIn.filter P.staysAtRim,
    rimOut := P.rimOut.filter fun cf => cf.2.ofLink
    inflight := P.inflight.map fun x => { x with sent := false, again := true } }

/-! ### Repairs (Table 12.1, R321) -/

/-- A page of a row becomes LOST: a new page takes its place, unsealed and without resume, and its positions are rebuilt. The
row's table and directory change; the lost page keeps its place until its references end. -/
def losePage (s : State) (p id : Nat) : State :=
  s.mapPart p fun P =>
    let P1 := freePageSlot P id
    match P1.page id with
    | some x => P1.setPage id (some { x with st := .lost })
    | none => P1

/-- The lost pages that a row's tables name, as (layer, k). -/
def lostOf (s : State) (r : Nat) : List (Nat × Nat) :=
  let x := s.row r
  x.pages.tables.flatMap fun kv => ((List.range kv.2.length).zip kv.2).filterMap fun kt =>
    match (s.part x.part).page kt.2.page with
    | some i => if i.st == .lost then some (kv.1, kt.1) else none
    | none => none

/-- First position of a row that is done again by its oldest unretired step, or by its next entry (R420). -/
def replayPoint (P : Partition) (r : Nat) (x : Row) : Nat :=
  match P.riding r with
  | e :: _ => if e.kind = 2 then e.tok else e.tok - 1
  | [] => if x.isImport && x.state == 9 then x.promptLen.toNat - 1 else if x.draft && x.state == 5 then x.fed else x.closedTo

/-- A new page for a lost one (R321): placed by R306, in the lost page's format unless slots cannot hold it (R316; log entry 111),
referenced once, its slot given now or when one is free; the old one loses its reference. -/
def replaceLost (s : State) (r : Nat) (lk : Nat × Nat) : State :=
  let x := s.row r
  let p := x.part
  let P := s.part p
  match x.pages.entry lk.1 lk.2 with
  | none => s
  | some t =>
    let k8 := ((P.page t.page).map (·.k8)).getD false && P.layout.2.1
    match placePage s p (P.plat lk.1) (r + lk.2) (pageUnits P.groups k8) [] with
    | none => s
    | some (home, u) =>
      let id := pageId home u
      let P1 := dropPage (P.setPage id (some { layer := lk.1, k8 := k8, st := .filling, refs := 1, slot := none })) t.page
      giveSlot (replaceEntry (s.setPart p P1) r lk.1 lk.2 { page := id }) r lk.1 { page := id }

/-- A span cut in two where it holds a position above its first. -/
def cutSpan (c : Nat) (ab : Nat × Nat) : List (Nat × Nat) :=
  if ab.1 < c && c ≤ ab.2 then [(ab.1, c - 1), (c, ab.2)] else [ab]

/-- Positions of the pages k, below the replay point, lowest first; a page that holds a row's switch position is rebuilt in two spans, the
lower one on the old copy, and one that holds the end of an attached prefix in two, the lower one with the handle's seed (R323, R349,
R420). -/
def rebuildSpans (ks : List Nat) (top switchAt attached : Nat) : List (Nat × Nat) :=
  (sortBy (fun a b => decide (a ≤ b)) ks.eraseDups).flatMap fun k =>
    if top ≤ 64 * k then []
    else (cutSpan switchAt (64 * k, min (64 * k + 63) (top - 1))).flatMap (cutSpan attached)

/-- Pages of a row that steps which have left the pipeline have completed, as (layer, k, entry): a purge may have taken their page-full
notices, which no step gives again (R321, R404, R419; log entry 111). -/
def completeOf (s : State) (r : Nat) : List (Nat × Nat × Tent) :=
  let x := s.row r
  let P := s.part x.part
  let top := replayPoint P r x
  x.pages.tables.flatMap fun kv => ((List.range kv.2.length).zip kv.2).filterMap fun kt =>
    match P.page kt.2.page with
    | some i => if i.st == .filling && 64 * kt.1 + 64 ≤ top && x.rebuild.all (fun ab => 64 * kt.1 + 63 < ab.1 || ab.2 < 64 * kt.1) then
        some (kv.1, kt.1, kt.2) else none
    | none => none

/-- Rows whose pages were lost: replacements written, complete pages sealed, new pages allocated, rebuild entries due (R321,
R419, R420). A handle is cut to the pages below its lowest lost one (R323). -/
def rebuildRow (s : State) (r : Nat) : State :=
  let s1 := (completeOf s r).foldl (fun s c => fillPage s r c.1 c.2.1 c.2.2) (writeHeld s r)
  let lost := lostOf s1 r
  if lost.isEmpty then s1
  else
    let x := s1.row r
    let top := replayPoint (s1.part x.part) r x
    let spans := rebuildSpans (lost.map (·.2)) top ((x.oldGen.map (·.2)).getD 0) x.attached
    -- what is still due of an earlier recovery's pages stays due
    let due := x.rebuild.filter fun ab => !(lost.map (·.2)).contains (ab.1 / 64)
    lost.foldl (fun s lk => replaceLost s r lk) (s1.setRow r { x with
      rebuild := sortBy (fun a b => decide (a.1 ≤ b.1)) (due ++ spans)
      lostPages := (x.lostPages ++ lost.filter fun lk => decide (64 * lk.2 < top)).eraseDups })

/-- Fails the commands that were moving pages of handle h; a handle still being made is given up with its command (Table 9.10). -/
def failMoves (s : State) (h : Nat) : State :=
  (kvOn s h).foldl (fun (s : State) w =>
    let making := ((s.kv w).run.map (·.op)) == some 1
    let s1 := kvFail 0xA s w
    if making then retireHandle s1 h else s1) s

/-- Runs set aside on homes of a lost region are set aside again on homes in service, by R306 (R507). -/
def replaceRuns (s : State) (p r : Nat) : State :=
  let inRegion := fun (k : Nat) => match tileAt k with
    | some t => regionOf t == r
    | none => false
  ((s.rowsOf p).map (·.1)).foldl (fun (s : State) n =>
    ((s.row n).runs.filter fun u => inRegion u.home).foldl (fun (s : State) u =>
      let s1 := s.mapRow n fun x => x.dropRun u.layer u.k
      match placePage s1 p ((s1.part p).plat u.layer) (n + u.k) u.units [] with
      | some (home, unit) => s1.mapRow n fun x => { x with runs := x.runs ++ [{ u with home := home, unit := unit }] }
      | none => s1) s) s

/-- Cuts a handle whose page is lost to the pages below it, and writes its tables (R313, R323). -/
def cutHandle (s : State) (h : Nat) : State :=
  let H := s.handle h
  let bad := H.pages.tables.flatMap fun kv => ((List.range kv.2.length).zip kv.2).filterMap fun kt =>
    match (s.part H.part).page kt.2.page with
    | some i => if i.st == .lost then some kt.1 else none
    | none => none
  match bad with
  | [] => s
  | b :: bs =>
    let s := failMoves s h
    if !(s.handle h).live then s else
    let k := bs.foldl min b
    let cut := H.pages.tables.map fun kv => (kv.1, kv.2.take k)
    let gone := H.pages.tables.flatMap fun kv => (kv.2.drop k).map (·.page)
    let s1 := s.mapPart H.part fun P => gone.foldl dropPage P
    let w := writeTables s1 H.part (8192 + h) { (s1.handle h).pages with tables := cut.filter fun kv => !kv.2.isEmpty } []
    w.1.setHandle h { H with len := min H.len (64 * k), tokens := H.tokens.take (64 * k), pages := w.2 }

/-- Commands whose new pages in a partition were lost fail (Table 9.10). -/
def failLost (s : State) (p : Nat) : State :=
  (s.kvp.map (·.1)).foldl (fun (s : State) w => match (s.kv w).run with
    | some R =>
      if R.part = p && !R.away && R.pages.ids.any (fun id => ((s.part p).page id).map (·.st) == some .lost) then kvFail 0xA s w else s
    | none => s) s

/-- Rebuilds after a recovery's losses, for every row and handle of the partition. -/
def rebuildAll (s : State) (p : Nat) : State :=
  let s1 := (((s.rowsOf p).filter fun kv => kv.2.active).map (·.1)).foldl rebuildRow (failLost s p)
  ((s1.handles.filter fun kv => kv.2.live && kv.2.part == p).map (·.1)).foldl cutHandle s1

/-- The page whose frame holds a column line of a home, or whose slot holds a granule. -/
def pageAtLine (P : Partition) (home line : Nat) : Option Nat :=
  match P.area home 5 with
  | none => none
  | some a => (P.dir.find? fun kv => match kv.2 with
      | some x => pageHome kv.1 == home && decide (a.1 + 64 * pageUnit kv.1 ≤ line) &&
          decide (line < a.1 + 64 * pageUnit kv.1 + pageLines P.groups x.k8)
      | none => false).map (·.1)

def pageAtGranule (P : Partition) (home g : Nat) : Option Nat :=
  let lay := P.layout
  (P.dir.find? fun kv => match kv.2 with
    | some x => pageHome kv.1 == home && (match x.slot with
        | some i => decide (lay.2.2.1 + lay.2.2.2 * i ≤ g) && decide (g < lay.2.2.1 + lay.2.2.2 * (i + 1))
        | none => false)
    | none => false).map (·.1)

/-- A shard's lines have been handed to the tiles of its copy: those of a verified generation, and of one being loaded the shards that have
arrived whole (R419, Table 10.7). -/
def shardWritten (s : State) (p : Nat) (slot : Option Nat) (copy ready : Bool) (i : Nat) : Bool :=
  ready || s.rnd.any fun kv => match kv.2.load with
    | some L => L.part == p && L.slot == slot && L.copy == copy && (match L.shards[i]? with
        | some x => x.st == .hashing || x.st == .good
        | none => false)
    | none => false

/-- Shards with lines on a tile, by slot, copy and index: those of every copy that have been written there. -/
def tileJobs (s : State) (p tile : Nat) : List (Option Nat × Bool × Nat) :=
  let P := s.part p
  let on := fun (slot : Option Nat) (c ready : Bool) (n : Nat) => (List.range n).filterMap fun i =>
    if shardWritten s p slot c ready i && (shardPlaces P slot c i).any fun q => q.tile == tile then some (slot, c, i) else none
  let jobs := [false, true].flatMap fun c => match P.gen c with
    | some g => on none c g.ready g.man.shards.length
    | none => []
  let slotJobs := P.slots.flatMap fun jx => [false, true].flatMap fun c => match jx.2.gen c with
    | some g => on (some jx.1) c g.ready g.man.shards.length
    | none => []
  jobs ++ slotJobs

/-- A shard of a running load that is still being hashed: what has arrived is what is written. -/
def stillHashed (s : State) (p : Nat) (j : Option Nat × Bool × Nat) : Bool :=
  s.rnd.any fun kv => match kv.2.load with
    | some L => L.part == p && L.slot == j.1 && L.copy == j.2.1 && (L.shards[j.2.2]?.map (·.st)) == some .hashing
    | none => false

/-- Digests of shards whose masters do not hold: each is hashed first, as in R353 (Table 12.1, R419). -/
def badMasters (s : State) (p : Nat) (jobs : List (Option Nat × Bool × Nat)) : List (BitVec 384) :=
  ((jobs.filter fun j => !stillHashed s p j).filterMap fun j =>
    (((heldManifest (s.part p) j.1 j.2.1).bind fun m => m.shards[j.2.2]?).map (·.digest)).filter fun d => !s.masterHolds d).eraseDups

/-- Every copy's shards that have lines on a tile are rewritten from their masters. -/
def rewriteTile (s : State) (p tile : Nat) : State :=
  (tileJobs s p tile).foldl (fun s j => rewriteShard s p j.1 j.2.1 j.2.2) s

/-- Program and plan of a tile as the image copy has them (R249). -/
def storeTile (img : ImageData) (k : Nat) (T : Tile) : Tile :=
  let w : Word := BitVec.ofNat 32 k
  let init := img.inits.find? fun i => i.tile == w
  { T with
    prog := ((img.programs.find? fun q => q.tile == w).map (·.words)).getD []
    plan := ((img.plans.find? fun q => q.tile == w).map (·.delays)).getD []
    initCredit := (init.map (·.credit)).getD []
    barMember := (init.map (·.barMember)).getD 0 }

/-- The lines of a page set's table for a layer, at P2 on their way to a control core whose lines begin at `first`. -/
def sendTable (s : State) (p tile first layer who : Nat) (ps : PageSet) : State :=
  (List.range ps.lines).foldl (fun (s : State) i =>
    writeLow s p tile 2 (first + ps.base + i) (tableLine ps.version (FMap.get [] ps.tables layer) i) (List.replicate 128 0) (some who)) s

/-- Page-table lines are written again from the Signal Box's copy, at P2 (R302, Table 12.1). -/
def rewriteTables (s : State) (p tile : Nat) : State :=
  let P := s.part p
  match P.feet.find? fun f => f.control.toNat == tile, P.area tile 5 with
  | some f, some a =>
    let s1 := (s.rowsOf p).foldl (fun (s : State) (kv : Nat × Row) =>
      (sendTable s p tile a.1 f.layer kv.1 kv.2.pages).mapRow kv.1 fun x =>
        { x with pages := { x.pages with acks := x.pages.acks + x.pages.lines } }) s
    (s.handles.filter fun kv => kv.2.live && kv.2.part == p).foldl (fun (s : State) (kv : Nat × Handle) =>
      awaitLines (sendTable s p tile a.1 f.layer (8192 + kv.1) kv.2.pages) kv.1 kv.2.pages.lines) s1
  | _, _ => s

/-- The repair of one record (Table 12.1). -/
def repair (s : State) (p : Nat) (x : FltRec) : State :=
  let P := s.part p
  let k := x.tile.toNat
  if x.cls = 0x10 then rewriteTile s p k
  else if x.cls = 0x11 then ((pageAtLine P k x.loc.toNat).map fun id => losePage s p id).getD s
  else if x.cls = 0x12 then rewriteTables s p k
  else if x.cls = 0x14 then ((pageAtGranule P k x.loc.toNat).map fun id => losePage s p id).getD s
  else if x.cls = 0x15 then
    match P.image, tileAt k with
    | some img, some t => s.setTile t (storeTile img k (s.tile t))
    | _, _ => s
  else s

/-! ### Diversion (R418, R419) -/

/-- Tree distance of the farthest tile: Manhattan, plus the way round a lost region that spans the rectangle between the root and
the tile (R215, R418). -/
def treeMax (P : Partition) (lost : Option Nat) : Nat :=
  let tiles := (rectTiles P.gx0 P.gy0 P.width P.height lost).filterMap tileAt
  let root := tiles.foldl (fun (a : Option TileAddr) t => match a with
    | none => some t
    | some b => if t.row < b.row || (t.row = b.row && t.col < b.col) then some t else some b) none
  match root with
  | none => 0
  | some o =>
    let detour := fun (t : TileAddr) => match lost with
      | none => 0
      | some r =>
        let x0 := 28 * (r / 12); let x1 := x0 + 27; let y0 := 27 * (r % 12); let y1 := y0 + 26
        let lx := min o.col.val t.col.val; let hx := max o.col.val t.col.val
        let ly := min o.row.val t.row.val; let hy := max o.row.val t.row.val
        if x0 ≤ lx && hx ≤ x1 && ly < y0 && y1 < hy then
          -- the hole spans the columns between: round its nearer side inside the partition
          let left := if 28 * P.gx0 < x0 then 2 * (lx + 1 - x0) else 1000000
          let right := if x1 + 1 < 28 * (P.gx0 + P.width) then 2 * (x1 + 1 - hx) else 1000000
          min left right
        else if y0 ≤ ly && hy ≤ y1 && lx < x0 && x1 < hx then
          let down := if 27 * P.gy0 < y0 then 2 * (ly + 1 - y0) else 1000000
          let up := if y1 + 1 < 27 * (P.gy0 + P.height) then 2 * (y1 + 1 - hy) else 1000000
          min down up
        else 0
    tiles.foldl (fun m t => max m ((t.col.val - o.col.val) + (o.col.val - t.col.val) + (t.row.val - o.row.val) + (o.row.val - t.row.val) +
      detour t)) 0

/-- Horizon of R216 at a load, of R418 with a diversion in force. -/
def Partition.horizonOf (P : Partition) (lost : Option Nat) : Nat :=
  match lost with
  | none => 2 * (28 * P.width + 27 * P.height) + 16
  | some _ => 2 * treeMax P lost + 20

/-- Route tables of a partition's regions, from an image's triples; a lost region is LOST in every table (R231). -/
def writeRoutes (s : State) (p : Nat) (ts : List RouteTriple) (lost : Option Nat) : State :=
  (s.part p).regions.foldl (fun (s : State) r =>
    let base : FMap (BitVec 3) := ts.foldl (fun m t => if t.router = r then FMap.set 0 m t.dest t.code else m) []
    s.setRegion r { s.region r with routes := match lost with
      | some d => FMap.set 0 base d 5
      | none => base }) s

/-- The plan for a lost region in a partition's image. -/
def planFor (P : Partition) (r : Nat) : Option DivPlan := P.image.bind fun img => img.divs.find? fun d => d.region == r

/-- A partition with the plan for the lost region in its image, its entry tile, gate and trees. -/
def Partition.diverted (P : Partition) (r : Nat) : Partition :=
  match P.image, planFor P r with
  | some img0, some d =>
    let img := mergePlan img0 d
    let P1 := { P with
      lost := some r, entry := (tileAt img.header.entryTile.toNat).getD P.entry, gate := (tileAt img.header.gateTile.toNat).getD P.gate,
      image := some img }
    { P1 with horizon := P1.horizonOf (some r) }
  | _, _ => P

/-- Tiles that take lines of the lost region by its plan. -/
def planTiles (P : Partition) (r : Nat) : List Nat :=
  match (P.diverted r).image, planFor P r with
  | some img, some d => (rectTiles P.gx0 P.gy0 P.width P.height (some r)).filter fun k =>
      (img.weights.lines.any fun x => x.area == 2 && x.tile.toNat == k) || d.weights.adapters.any fun x => x.tile.toNat == k
  | _, _ => []

/-- The plan for the lost region comes into force: routes, trees, stores, losses of pages, and the lost lines from their masters. -/
def putPlan (s : State) (p r : Nat) : State :=
  let P := s.part p
  let P1 := P.diverted r
  match P1.image, planFor P r with
  | some img, some _ =>
    let s1 := dropLines (s.setPart p P1) r
    let s2 := mapTiles (writeRoutes s1 p img.routes (some r)) p fun k T => storeTile img k T
    let dead := (s2.part p).dir.filter fun kv => match tileAt (pageHome kv.1) with
      | some t => regionOf t == r
      | none => false
    let s3 := replaceRuns (dead.foldl (fun s kv => losePage s p kv.1) s2) p r
    (planTiles P r).foldl (fun s k => rewriteTile s p k) s3
  | _, _ => s

/-! ### PURGE_END (R406, R409, R419) -/

/-- A column line of the Roundhouse. -/
def Flit.isWeight (f : Flit) : Bool := f.src == .roundhouse
/-- A line of a load that was given up: the Roundhouse sends it no more (R344). -/
def Flit.givenUp (f : Flit) : Bool :=
  match f.body with
  | .line a => match a.ack with
    | some who => 32768 ≤ who && who < 98304
    | none => false
  | _ => false

/-- Flits of a partition are discarded everywhere, and its unsent outbound cells; messages from the rim wait in the rim (R406 step 2).
Lines that were under way go back to the front of their queues (log entry 109). -/
def purge (s : State) (p : Nat) : State :=
  let s1 := mapTiles s p fun _ T => { T with fifo := [], skid := [], deliver := [], ages := [], sendQ := [], mgmtQ := [] }
  let s2 := s1.mapPart p fun P => { P with
    rimIn := P.rimIn.filter P.staysAtRim, rimOut := P.rimOut.filter fun cf => cf.2.ofLink, lineSent := []
    pageOut := (P.lineSent.filter fun f => !f.isWeight) ++ P.pageOut
    weightOut := (P.lineSent.filter fun f => f.isWeight && !f.givenUp) ++ P.weightOut }
  { s2 with ports := s2.ports.filterMap fun kv =>
      let L := (kv.2.setQueue p []).setBacklog p []
      if L = {} then none else some (kv.1, L) }

/-- Notices that a row's unretired decode or verify entry gives again. -/
def noticesAgain (P : Partition) (r : Nat) : Nat := (((P.riding r).find? fun e => e.kind != 2).map (·.nPos)).getD 0

/-- Rows that an unretired step carries: ROW_STATUS.recovered, and flag bit 4 on the next record (R283, R426); their notices come again. -/
def markRecovered (s : State) (p : Nat) : State :=
  ((s.rowsOf p).filter fun kv => (s.part p).inFlight kv.1).foldl (fun (s : State) kv =>
    s.setRow kv.1 { kv.2 with recovered := true, flag4 := true, notices := noticesAgain (s.part p) kv.1 }) s

/-- Regions of a partition that are lost and not diverted round yet. -/
def newlyLost (s : State) (p : Nat) : List Nat :=
  let P := s.part p
  P.regions.filter fun r => !(s.region r).inService && P.lost != some r

/-- Masters that a recovery's repairs need and that do not hold (Table 12.1, R419). -/
def mastersDue (s : State) (p : Nat) (todo : List FltRec) (r : Option Nat) : List (BitVec 384) :=
  let here := (todo.filter fun x => x.cls = 0x10).flatMap fun x => tileJobs s p x.tile.toNat
  let plan := match r with
    | none => []
    | some r =>
      let s1 := s.setPart p ((s.part p).diverted r)
      (planTiles (s.part p) r).flatMap fun k => tileJobs s1 p k
  badMasters s p (here ++ plan)

/-- Steps 3 to 6 of R406 and 2 to 6 of R419: the repairs of the records and of those owed, the plan for region r, the start. -/
def resume (s : State) (p : Nat) (mine : List FltRec) (r : Option Nat) : State :=
  let s1 := (mine ++ (s.part p).owed).foldl (fun s x => repair s p x) s
  let s2 := match r with
    | some r => putPlan s1 p r
    | none => s1
  (startPartition (rebuildAll (markRecovered s2 p) p) p).mapPart p fun P => { P with recovering := false, divert := none, firstAfter := true, owed := [] }

/-- What the losses of a partition's regions mean for its restart: the cause that it halts with, or the region to go round (Table 12.5). -/
def lossVerdict (s : State) (p : Nat) : Except Nat (Option Nat) :=
  let P := s.part p
  match newlyLost s p with
  | [] => .ok none
  | [r] => if P.lost.isSome then .error 6 else if (planFor P r).isNone then .error 5 else .ok (some r)
  | _ => .error 6

/-- A recovery restarts its partition and its records are closed. -/
def restart (s : State) (p : Nat) (mine : List FltRec) (r : Option Nat) : State :=
  let s4 := (resume s p mine r).mapPart p fun P => { P with measuring := true }
  let s5 := s4.countPart p (if r.isSome then ctrDivert else ctrReplay) 1
  let outcome := if r.isSome then 2 else if mine.any fun x => x.cls = 0x10 || x.cls = 0x11 || x.cls = 0x12 || x.cls = 0x15 then 1 else 0
  let s6 := closeRecords (closeRecords s5 (fun x => x.part == some p && x.state == 1) 3 outcome) (fun x => x.part == some p) 2 outcome
  let s7 := (setRstate s6 p 0).raiseFlt 1
  -- loads that the hold had paused go on (Table 10.7)
  settle ((s7.rnd.map (·.1)).foldl (fun s w => s.loadCheck w) s7)

/-- The purge ends: queued records of the partition are merged, their repairs made, and the partition restarts. Its masters are hashed first:
while one does not hold, the recovery waits until the master has been fetched again (R353, Table 12.1, Table 12.8). -/
def purgeEnd (s : State) (p : Nat) : State :=
  let P := s.part p
  if !P.recovering then s
  else
    let mine := s.fltQ.filter fun x => x.part == some p
    let s1 := purge s p
    let halt := fun (cause : Nat) => settle (closeHalted (haltSafe s1 p cause) p)
    match mine.find? fun x => haltClass x.cls with
    | some x => halt (if x.cls = 0x20 then 2 else if x.cls = 0x21 then 3 else 4)
    | none => match lossVerdict s p with
      | .error cause => halt cause
      | .ok r => match mastersDue s1 p (mine ++ P.owed) r with
        | [] => restart s1 p mine r
        | ds => ds.foldl (fun s d => fetchMaster s d (some p)) s1

/-- A controller in reset ends no purge: the recovery starts again from step 2 when it returns (R422). -/
def execPurgeEnd (p : PartId) (s : State) : Out := .next (if s.sufinDown then s else purgeEnd s p.val)

/-! ### RESTART (R413, R428) -/

/-- RECOVER op 1, from the physical function: it ends a halt safe whose cause allows it; during a recovery it is ignored with
RECOVER_BUSY. -/
def execRestart (w : WinId) (p : PartId) (s : State) : Out :=
  let P := s.part p.val
  if w.val != 0 || !pageShown s 0 (pagePrt + p.val) || s.sufinDown then .next s
  else if P.recovering || P.rstate = 1 || P.rstate = 2 then .next (s.raiseFlt 5)
  else if P.rstate = 3 && (P.cause = 1 || P.cause = 2 || P.cause = 3 || P.cause = 4 || P.cause = 7 || P.cause = 8) then
    .next (setRstate (s.mapPart p.val fun P => { P with cause := 0, recovering := true, streak := 0 }) p.val 1)
  else .next s

/-! ### Single parts (R415, R416, R422) -/

/-- A region's event, naming the partition that holds it. -/
def regionEvent (s : State) (r : RegionId) (cls detail : Byte) : State := errorEvent s (lossEvent s r cls detail)

def execFuseTrip (r : RegionId) (s : State) : Out := .next (regionEvent s r 0x30 0)

/-- A feed of a region stops: from the live one it switches to the other and counts it; with both gone the region is lost (R416). -/
def execClockFeedStop (f : FeedStop) (s : State) : Out :=
  let R := s.region f.region.val
  let s1 := stopFeed s f.region.val (R.onB != f.standby)
  if (s1.region f.region.val).noClock && !R.noClock && R.lostBy == 0 then .next (regionEvent s1 f.region 0x33 0) else .next s1

/-- The watchdog resets the controller: its record is written after the reset, and units keep their events (R422). -/
def execSufinReset (s : State) : Out := .next { s with sufinDown := true }

/-- The controller returns: it writes its record, takes the held events, and starts interrupted recoveries again from step 2,
where a running one stands until its purge ends. -/
def execSufinReturn (s : State) : Out :=
  if !s.sufinDown then .next s
  else
    let s1 := { s with sufinDown := false, heldEvents := [] }
    let s2 := takeEvent s1 { cls := 0x60, part := none, region := none, tile := none, detail := 0, loc := 0 }
    .next (s.heldEvents.foldl (fun s h => takeAt s h.ev h.time h.step) s2)

/-- An internal reset of the Signal Box: its state comes back from the mirror; every loaded partition is held and replays. -/
def execSignalBoxReset (s : State) : Out :=
  .next ((List.range 16).foldl (fun (s : State) (p : Nat) =>
    if (s.part p).loaded && (s.part p).rstate = 0 then
      beginRecovery ((faultHold s p 1).mapPart p fun P => { P with detected := s.ns }) p none
    else s) s)

end Sys2Proof.Machine
end

