-- ==== Sys2Proof/Machine/Shards.lean ====
section
/-! DEFINITION. Shards that arrive, hash, stall and fail, for a running load or for the badger's refetch of a master (R341–R343,
R353). -/
namespace Sys2Proof.Machine

/-! ### The badger's refetch of a master: the physical function's window stands for it (log entry 27) -/

/-- The hashing engines know the refetches of masters by a window number of their own. -/
def badgerWin : Nat := 128

/-- A repair whose master of shard i is being fetched again. -/
def refetching (s : State) (w i : Nat) : Option Repair :=
  if w = 0 then s.house.repairs.find? fun r => r.refetch && r.shard == i else none

/-- The shard entry of a repair: the one that its generation, or any other, names for the digest. -/
def repairEntry (s : State) (r : Repair) : Option ShardEntry := (shardOf s r.digest).map (·.2.2.2.2)

def setRepair (s : State) (r r' : Repair) : State :=
  { s with house := { s.house with repairs := s.house.repairs.map fun q => if q = r then r' else q } }

/-- An attempt fails: what it wrote is discarded, and the next used source is tried; after the fifth every source has failed, and a partition
whose wafer copy or recovery needs the shard halts safe (R343, Table 12.5). -/
def refetchFails (s : State) (r : Repair) : State :=
  let s0 := assignEngines (giveEngine (s.dropFetched r.digest) badgerWin r.shard)
  if 5 ≤ r.attempts then
    let s1 := { s0 with house := { s0.house with repairs := s0.house.repairs.erase r } }
    if r.lines || r.recovery then settle (closeHalted (haltSafe s1 r.part 7) r.part) else s1
  else
    let s2 := match repairEntry s r with
      | some e =>
        let k := nextSource e (r.source + 1)
        (setRepair s0 r { r with attempts := r.attempts + 1, source := k, bytes := [] }).askSource r.part e k
      | none => setRepair s0 r { r with attempts := r.attempts + 1, bytes := [] }
    (s2.countPart r.part ctrShardRetry 1).raiseRnd 0 3 true

def refetchReceived (s : State) (w i : Nat) (bytes : List Byte) : State :=
  match refetching s w i with
  | none => s
  | some r => match repairEntry s r with
    | none => s
    | some e =>
      if !r.bytes.isEmpty then s
      else if bytes.length = e.length then
        match takeEngine s badgerWin i with
        | some s1 => setRepair (s1.putMaster e.digest bytes) r { r with bytes := bytes }
        | none => s
      else refetchFails s r

/-- A refetched master's digest completes on engine k: good, a repair of the wafer copy goes on, one of the master alone is done. -/
def refetchHashed (s : State) (w i k : Nat) : State :=
  match refetching s w i with
  | none => s
  | some r =>
    if r.bytes.isEmpty || FMap.get none s.house.engines k != some (badgerWin, i) then s
    else if Config.sha384 r.bytes != r.digest then refetchFails s r
    else
      let s1 := assignEngines (giveEngine (s.verifyMaster r.digest r.bytes) badgerWin i)
      if r.lines then setRepair s1 r { r with refetch := false, recovery := false, bytes := [] }
      else { s1 with house := { s1.house with repairs := s1.house.repairs.erase r } }

/-! ### Shards -/

/-- The load pauses while its partition is held for recovery (Table 10.7). -/
def loadPaused (s : State) (L : Load) : Bool := (s.part L.part).frozen || (s.part L.part).rstate != 0

/-- Shard i of a window's running load, where it stands as `c` says and the load is not paused; another shard of that index is a refetched
master's. -/
def loadShard (s : State) (w i : Nat) (c : ShardSt → Bool) : Option (Load × ShardRun × ShardEntry) :=
  match (s.rn w).load with
  | none => none
  | some L => match L.shards[i]?, L.man.shards[i]? with
    | some x, some e => if c x.st && !loadPaused s L then some (L, x, e) else none
    | _, _ => none

/-- A shard lies wholly in its master: one of the wrong length fails; otherwise it is distributed while it is hashed, on the first free
engine; with none free its bytes wait at the source (R340, R341). -/
def execShardReceived (w : WinId) (i : Nat) (bytes : List Byte) (s : State) : Out :=
  match loadShard s w.val i (· == .fetching) with
  | none => .next (refetchReceived s w.val i bytes)
  | some (L, x, e) =>
    if bytes.length != e.length then .next (shardFails s w.val i)
    else match takeEngine s w.val i with
    | none => .next s
    | some s =>
      let s1 := (s.putMaster e.digest bytes).setRn w.val { s.rn w.val with load := some (L.setShard i { x with st := .hashing, bytes := bytes }) }
      .next (distribute s1 w.val i bytes)

/-- A shard's digest completes on its engine, of the bytes of this very fetch or of the master it was taken from: a match counts it, one hashed
from its master is then distributed; a mismatch discards what was held and fetches again (R342, R343). -/
def execShardHashed (w : WinId) (i : Nat) (k : Fin 64) (s : State) : Out :=
  match loadShard s w.val i (fun st => st == .hashing || st == .rehash) with
  | none => .next (refetchHashed s w.val i k.val)
  | some (L, x, e) =>
    if FMap.get none s.house.engines k.val != some (w.val, i) then .next (refetchHashed s w.val i k.val)
    else
      let bytes := if x.st = .rehash then ((s.master e.digest).map (·.bytes)).getD [] else x.bytes
      if Config.sha384 bytes != e.digest then
        .next (shardFails (if x.st = .rehash then s.dropMaster e.digest else s.dropFetched e.digest) w.val i)
      else
        let s0 := (giveEngine s w.val i).verifyMaster e.digest bytes
        let s1 := s0.setRn w.val { s.rn w.val with
          done := (s.rn w.val).done + 1, load := some (L.setShard i { x with st := .good, bytes := [] }) }
        let s2 := if x.st = .rehash then distribute s1 w.val i bytes else s1
        .next ((assignEngines s2).loadCheck w.val)

/-- A source makes no progress for 100 ms, or a host read completes with an error (R343). -/
def shardStops (s : State) (w : WinId) (i : Nat) : State :=
  match loadShard s w.val i (· == .fetching), refetching s w.val i with
  | none, some r => if r.bytes.isEmpty then refetchFails s r else s
  | _, _ =>
    if ((s.rn w.val).load.bind fun L => L.shards[i]?).any fun x => x.st == .fetching then shardFails s w.val i else s

def execShardStall (w : WinId) (i : Nat) (s : State) : Out := .next (shardStops s w i)
def execShardReadError (w : WinId) (i : Nat) (s : State) : Out := .next (shardStops s w i)

end Sys2Proof.Machine
end

