-- ==== Sys2Proof/Machine/Load.lean ====
section
/-! DEFINITION. LOAD_IMAGE, quarantine and zeroisation, and kills (R351, R392, R470–R472). -/
namespace Sys2Proof.Machine

/-! ### Kills -/

/-- Ends a row as a kill: FREE with gen + 1 and no completion record (R392, R470). -/
def killRow (s : State) (r : Nat) : State := freeRowWith s r true

/-- The fields of a row that a quarantine killed take their reset values (R261, Table 14.8; log entry 116). -/
def blankRow (s : State) (r : Nat) : State :=
  s.mapRow r fun x => { gen := x.gen, pages := { acks := x.pages.acks } }

/-- Rows of a partition that a quarantine ends: active ones; DONE and EXPORTED keep their state for the host (R470). -/
def killRows (s : State) (p : Nat) : State :=
  (((s.rowsOf p).filter fun kv => kv.2.active).map (·.1)).foldl (fun s r => blankRow (killRow s r) r) s

/-- Retires handles as a kill. -/
def retireHandles (s : State) (c : Handle → Bool) : State :=
  ((s.handles.filter fun kv => kv.2.live && c kv.2).map (·.1)).foldl (fun s i => retireHandleWith s i true) s

/-- A partition's stores are cleared: no handle holds pages in them. -/
def forgetKept (s : State) (p : Nat) : State :=
  { s with handles := s.handles.map fun kv => (kv.1, { kv.2 with kept := kv.2.kept.filter fun pp => pp.1 != p }) }

/-! ### Slot share (R375) -/

/-- Writes a slot's kind into both tables. -/
def LinkPort.setKind (L : LinkPort) (slot : Nat) (k : BitVec 2) : LinkPort :=
  { L with tableA := FMap.set {} L.tableA slot { FMap.get {} L.tableA slot with kind := k }
           tableB := FMap.set {} L.tableB slot { FMap.get {} L.tableB slot with kind := k } }

/-- Every slot of a partition's share goes idle. -/
def clearShare (s : State) (p : Nat) : State :=
  { s with ports := s.ports.map fun kv =>
      (kv.1, (kv.2.owners.filter fun o => o.2 == some p).foldl (fun L o => L.setKind o.1 0) kv.2) }

/-! ### Quarantine (R470, Table 14.7) -/

/-- A tile after zeroisation: everything zero, no membership, no partition; the place in service, refresh_defer_max and the
column's bursts stay (R37, R63). -/
def zeroTile (T : Tile) : Tile :=
  { Tile.reset with part := T.part, inService := T.inService, deferMax := T.deferMax, reads := T.reads, refreshing := T.refreshing, owed := T.owed,
                    burstDue := T.burstDue }

/-- The partition's fields after zeroisation: the rectangle goes with the image; hold flags stay as events. -/
def zeroPart (P : Partition) : Partition :=
  { gx0 := P.gx0, gy0 := P.gy0, width := P.width, height := P.height, refusal := P.refusal, section_ := P.section_,
    bstate := P.bstate, quarantine := true, frozen := true, hsFault := P.hsFault, hsSlip := P.hsSlip, hsLadder := P.hsLadder,
    hsHoldreq := P.hsHoldreq, hsGovernor := P.hsGovernor }

/-- Loads that a partition was taking end with its generations (R351; log entry 55). -/
def endLoads (s : State) (p : Nat) : State :=
  (List.range 128).foldl (fun (s : State) (w : Nat) => match (s.rn w).load with
    | some L => if L.part = p then (discardLoad s w L).endRnd w 0xA else s
    | none => s) s

/-- KVP commands that move pages out of a partition or into it fail with it (R330, R470; log entry 112). -/
def endMoves (s : State) (p : Nat) : State :=
  (s.kvp.map (·.1)).foldl (fun (s : State) w => match (s.kv w).run with
    | some R =>
      if (s.handle R.handle).part = p then kvFail 0xA s w
      else if R.part = p && !R.away then kvFail 9 s w
      else s
    | none => s) s

/-- The badger looks back no further than the present image of a partition: its scrubs, repairs and the rows its steps carried go with its
generations (R351, R354). -/
def forgetHouse (s : State) (p : Nat) : State :=
  let H := s.house
  { s with house := { H with
      carried := H.carried.filter fun c => c.part != p
      scrubs := H.scrubs.filter fun q => q.1 != p
      repairs := H.repairs.filter fun r => r.part != p || (r.refetch && !r.lines && !r.recovery)
      visited := H.visited.filter fun q => q.1 != p } }

/-- Quarantine begins: hold and purge, rows killed, submitted rows wait for their 0x0B, handles retired (R470 steps 1 and 2);
every generation and adapter generation is retired with its pins (R351, Table 10.7). A running recovery is abandoned (Table 12.4). -/
def beginQuarantine (s : State) (p : Nat) : State :=
  let s1 := settle (closeRecords (faultHold s p 0) (fun x => x.part == some p) 3 3)
  let s2 := purge s1 p
  let s3 := retireHandles (killRows (endLoads (endMoves s2 p) p) p) fun H => H.part == p || H.origin == p
  -- the domain of a region that was lost before is switched off now (Table 14.8)
  let s3 := ((s3.part p).regions.filter fun r => !(s3.region r).inService).foldl eraseRegion s3
  let s4 := ((s3.rowsOf p).map (·.1)).foldl (fun (s : State) r => s.mapRow r fun x => { x with unpinned := true }) s3
  (clearShare (forgetKept (forgetHouse s4 p) p) p).mapPart p fun P =>
    { P with quarantine := true, recovering := false, copy0 := none, copy1 := none, slots := [], inflight := [] }

/-- No line is on its way to a partition any longer. -/
def noLines (s : State) (p : Nat) : State :=
  let s1 := ((s.rowsOf p).map (·.1)).foldl (fun (s : State) r =>
    s.mapRow r fun x => { x with pages := { x.pages with acks := 0 } }) s
  ((s1.handles.filter fun kv => kv.2.part == p).map (·.1)).foldl (fun (s : State) h =>
    let H := s.handle h
    s.setHandle h { H with pages := { H.pages with acks := 0 } }) s1

/-- The stores are cleared (R470 step 3). -/
def zeroise (s : State) (p : Nat) : State :=
  let s1 := writeRoutes (mapTiles (clearStagers s p) p fun _ T => zeroTile T) p [] none
  let s2 := noLines { s1 with shipped := s1.shipped.filter fun x => x.part != p || x.window.isSome } p
  s2.mapPart p zeroPart

/-! ### LOAD_IMAGE (R351, R360, R461) -/

/-- The command is taken and its checks start; before bring-up is complete it is not permitted. -/
def execLoadImage (w : WinId) (f : ImageFile) (s : State) : Out :=
  .next (rndCommand s w fun s =>
    let R := s.rn w.val
    let p := (R.part.extractLsb' 0 4).toNat
    if w.val != 0 || !s.bru.done then s.endRnd w.val 8
    else
      (s.setRn w.val { R with busy := true, image := some { part := p, img := imageOf f R.len.toNat } }).mapPart p fun P => { P with bstate := 1 })

/-- The image is refused: BUILD_STAT shows it, everything else stays (R250). -/
def refuseImage (s : State) (w p code sect : Nat) : State :=
  ((s.mapPart p fun P => { P with bstate := 3, refusal := code, section_ := sect }).raisePrt p 8).endRnd w 0xB

/-- A load's checks end without a verdict: BUILD_STAT shows the image that stands, and BUILD_LOADED is raised where that is one (R494). -/
def keepImage (s : State) (p : Nat) : State :=
  let had := (s.part p).image.isSome
  let s1 := s.mapPart p fun P => { P with bstate := if had then 2 else 0 }
  if had then s1.raisePrt p 7 else s1

/-- The running command of a window ends with status 0x0A: a generation being built is discarded, the checks of an image stop. Where its
partition is in quarantine already, the command ends only with `all`, and no image is written then (R392). -/
def abortRnd (s : State) (w : Nat) (all : Bool) : State :=
  if !(s.rn w).busy then s
  else match (s.rn w).load with
    | some L => (discardLoad s w L).endRnd w 0xA
    | none => match (s.rn w).image with
      | some I => if !I.quarantined then (keepImage s I.part).endRnd w 0xA else if all then s.endRnd w 0xA else s
      | none => s.endRnd w 0xA

/-- The checks finish: refusal, rows in the way, or quarantine. -/
def execLoadChecksDone (w : WinId) (s : State) : Out :=
  let R := s.rn w.val
  match R.image with
  | none => .next s
  | some I =>
    if I.quarantined then .next s
    else match imageCheck s I.part R.len.toNat I.img with
      | (0, _) =>
        if partActive s I.part != 0 && !R.flags.getLsbD 1 then
          .next ((keepImage s I.part).endRnd w.val 9)
        else
          .next (beginQuarantine (s.setRn w.val { R with image := some { I with quarantined := true } }) I.part)
      | (code, sect) => .next (refuseImage s w.val I.part code sect)

/-- Tile words of the image's rectangle take its programs, plans and initial values, and belong to the partition. -/
def writeImage (s : State) (p : Nat) (img : ImageData) : State :=
  let h := img.header
  let P := s.part p
  let P1 : Partition := { P with
    bstate := 2, refusal := 0, section_ := 0, exact := h.mode == 1, role := h.role, arith3100 := h.arith == 1,
    divAll := (rectRegions h.gx0 h.gy0 h.width h.height).all fun r => img.divs.any fun d => d.region == r,
    gx0 := h.gx0, gy0 := h.gy0, width := h.width, height := h.height,
    entry := (tileAt h.entryTile.toNat).getD default, gate := (tileAt h.gateTile.toNat).getD default,
    image := some img, quarantine := false }
  let s1 := s.setPart p { P1 with horizon := P1.horizonOf none }
  let pid : Option PartId := if q : p < 16 then some ⟨p, q⟩ else none
  let s2 := mapTiles s1 p fun k T => { storeTile img k T with part := pid }
  let s3 := writeRoutes s2 p img.routes none
  let s4 := img.slots.foldl (fun (s : State) (q : SlotRec) => s.setPort q.port ((s.port q.port).setKind q.slot 1)) s3
  startPartition s4 p

/-- The image is written and starts; in a shutdown its partition stands halted with the rest until the warm restart (R446). -/
def placeImage (s : State) (p : Nat) (img : ImageData) : State :=
  let s1 := writeImage s p img
  if s.gov.shutdown then haltSafe s1 p 9 else s1

/-- Regions that failed their read-back go out of service with cause 12 and are erased (R472). -/
def failRegions (s : State) (rs : List Nat) : State :=
  if rs.isEmpty then s
  else (rs.foldl (fun (s : State) r =>
    addFault (eraseRegion (s.setRegion r { s.region r with inService := false }) r) 2 12 r 0) s).raise pageBru 3

/-- Tiles of a partition's rectangle leave it. -/
def releaseTiles (s : State) (p : Nat) : State := mapTiles s p fun _ T => { T with part := none }

/-! ### The start of a warm restart (R464) -/

/-- A warm restart starts: the fault-capture hold in every partition that runs, MOD_READY low; SENSOR_SPLIT ends (R438). -/
def startWarm (s : State) : State :=
  let s1 := (List.range 16).foldl (fun (s : State) (p : Nat) =>
    if (s.part p).loaded && (s.part p).rstate = 0 then faultHold s p 1 else s) s
  let blank : Heat := {}
  let hs := s1.heat.map fun (kv : Nat × Heat) => (kv.1, { kv.2 with split := false, apart := 0 })
  { s1 with
    heat := hs.filter fun kv => kv.2 != blank
    bru := { s1.bru with phase := 5, done := false, busy := true, warmWaits := false, ring := 0, next := 0, since := s1.ns }.logPhase }

/-- A WARM that waited for quarantines starts when none is left. -/
def warmCheck (s : State) : State :=
  if s.bru.warmWaits && s.parts.all fun kv => !kv.2.quarantine then startWarm s else s

/-- Quarantine ends: the stores read back zero; a waiting image is written and starts, unless a failed region lies in it. -/
def execQuarantineEnd (p : PartId) (bad : List RegionId) (s : State) : Out :=
  let P := s.part p.val
  if !P.quarantine then .next s
  else
    let s1 := releaseTiles (zeroise s p.val) p.val
    let s2 := failRegions s1 ((bad.map (·.val)).filter fun r => P.regions.contains r)
    let w := s2.rnd.find? fun kv => match kv.2.image with
      | some I => I.quarantined && I.part == p.val
      | none => false
    let bare := s2.mapPart p.val fun P => { P with quarantine := false, frozen := false, gx0 := 0, gy0 := 0, width := 0, height := 0,
                                                   bstate := 0, refusal := 0, section_ := 0 }
    match w.bind fun kv => kv.2.image.map fun I => (kv.1, I.img) with
    | none => .next (warmCheck bare)
    | some (w, img) =>
      .next (warmCheck (if rectOk bare p.val img.header then ((placeImage s2 p.val img).raisePrt p.val 7).endRnd w 0
                        else refuseImage bare w p.val 4 0))

/-! ### ROUNDHOUSE_RESET (R422) -/

/-- Every running command ends with status 0x0A; serving copies stay. -/
def execRoundhouseReset (s : State) : Out :=
  .next ((List.range 128).foldl (fun (s : State) (w : Nat) => abortRnd s w false) s)

/-! ### FUNCTION_LEVEL_RESET (R392) -/

/-- A private adapter slot's generations are retired, its lines zeroised (R392, R471). -/
def wipeSlot (s : State) (p j : Nat) : State :=
  let P := s.part p
  match P.image with
  | none => s
  | some img =>
    let s1 := match img.weights.layout with
      | none => s
      | some (lay : AdapterLayout) => (img.weights.adapters.filter fun (x : AdapterRec) => x.group == j % lay.groups).foldl (fun (s : State) (x : AdapterRec) =>
          match P.area x.tile.toNat 4, tileAt x.tile.toNat with
          | some a, some t => [0, 1].foldl (fun (s : State) c =>
              let first := a.1 + lay.stride * (2 * (j / lay.groups) + c) + x.line
              s.mapTile t fun T => { T with column := T.column.clear (1024 * first) (1024 * x.count)
                                            side := T.side.clear (128 * first) (128 * x.count) }) s
          | _, _ => s) s
    s1.mapPart p fun P => P.setSlot j { count := (P.slot j).count }

/-- Kills one virtual interface: rows, rings, running RND and KVP commands, handles, private slots. -/
def killVif (s : State) (w : Nat) : State :=
  let s1 := (((s.rows.filter fun kv => kv.2.owner == w && kv.2.state != 0).map (·.1))).foldl killRow s
  let s2 := { s1 with rings := s1.rings.map fun kv => if kv.1 / 32 = w then (kv.1, { kv.2 with enable := false }) else kv }
  let s3 := abortRnd s2 w true
  let s4 := { s3 with shipped := s3.shipped.filter fun x => x.window != some w }
  let s5 := if (s4.kv w).busy then (kvDrop s4 w).setKv w { s4.kv w with busy := false, run := none } else s4
  let s6 := retireHandles s5 fun H => H.owner == w
  let slots := s6.parts.flatMap fun kv => kv.2.slots.filterMap fun jx => if jx.2.owner = some w then some (kv.1, jx.1) else none
  let s7 := slots.foldl (fun s pj => wipeSlot s pj.1 pj.2) s6
  -- held low words and captured words of the window are discarded (R10)
  let mine := fun (k : Nat) => k / 2 ^ 28 != w
  { s7 with heldLow := s7.heldLow.filter fun kv => mine kv.1, capHigh := s7.capHigh.filter fun kv => mine kv.1,
            capFlt := s7.capFlt.filter fun kv => mine kv.1 }

/-- A function level reset of function w is complete: it counts there and raises FLR_DONE (R495). -/
def flrDone (s : State) (w : Nat) : State :=
  let v := s.vif w
  (s.setVif w { v with flrCount := satAdd32 v.flrCount 1 }).raiseIn 0 (pageVif + w) 0

/-- A reset of the physical function kills every virtual interface; partitions, images and generations stay. Only the function named
has been reset. -/
def execFunctionLevelReset (w : WinId) (s : State) : Out :=
  .next (flrDone (if w.val = 0 then (List.range 128).foldl killVif s else killVif s w.val) w.val)

end Sys2Proof.Machine
end

