-- ==== Sys2Proof/Machine/Links.lean ====
section
/-! DEFINITION. Link ports: cells, slots, the timetable, retransmission, training (R363–R365, R373–R388, R396). -/
namespace Sys2Proof.Machine

/-! ### Counters and events of a port -/

def ctrFecCorr : Nat := 0x060
def ctrFecUncorr : Nat := 0x064
def ctrRetx : Nat := 0x068
def ctrThruDrop : Nat := 0x06C
def ctrRxDrop : Nat := 0x070
def ctrDown : Nat := 0x078

def State.raiseLnk (s : State) (n bit : Nat) : State := s.raise (pageLnk + n) bit
def State.raiseHal (s : State) (bit : Nat) : State := s.raise pageHal bit

/-- Frame and slot numbers now, as one count of slots (R373). -/
def State.slotNow (s : State) : Nat := s.ns / 64

/-! ### Upstream (R370, R372) -/

/-- The UP port whose peer advertises the smallest depth, ties to the lowest port; none beyond depth 15. -/
def upstreamPort (s : State) : Option Nat :=
  let ups := (List.range 48).filter fun n => (s.port n).state == 3 && (s.port n).peerDepth < 15
  ups.foldl (fun (a : Option Nat) n => match a with
    | none => some n
    | some b => if (s.port n).peerDepth < (s.port b).peerDepth then some n else some b) none

/-- DISCIPLINED without an upstream port goes to HOLDOVER (Table 11.5). -/
def checkUpstream (s : State) : State :=
  let H := s.hall
  if H.root then s
  else match upstreamPort s with
    | some n =>
      if H.state = 2 then { s with hall := { H with upstream := n, depth := (s.port n).peerDepth + 1,
                                                    offsets := if n = H.upstream then H.offsets else [] } }
      else if n = H.upstream then s
      else { s with hall := { H with upstream := n, offsets := [] } }
    | none =>
      if H.state = 2 then { s with hall := { H with state := 3, depth := 0xFF, since := s.ns, offsets := [] } }.raiseHal 1 else s

/-! ### Port states (R364, R388) -/

/-- A port leaves UP, or TRAINING, for another state: LINK_DOWN, its count, and a report to the Sufin controller when it was UP. -/
def portState (s : State) (n : Nat) (st : Nat) (lanes : Byte) : State :=
  let L := s.port n
  let L1 := { L with state := st, lanes := lanes, peer := if st = 3 then L.peer else 0, peerDepth := if st = 3 then L.peerDepth else 255 }
  if L.state = 3 && st != 3 then
    let s1 := (s.setPort n (L1.count ctrDown 1)).raiseLnk n 0
    checkUpstream (errorEvent s1 { cls := 0x50, part := none, region := none, tile := none, detail := 0, loc := BitVec.ofNat 32 n })
  else s.setPort n L1

/-- All 8 lanes are trained in both directions. -/
def execLinkTrained (n : PortId) (peerHall : BitVec 16) (peerPort : PortId) (s : State) : Out :=
  let L := s.port n.val
  if L.state != 2 then .next s
  else
    let cal : FMap (BitVec 16) := s.cal.user.foldl (fun m kv =>
      if kv.1 / 65536 = 6 && (kv.1 % 65536) / 24 = n.val then FMap.set 0 m (kv.1 % 24) (BitVec.ofInt 16 kv.2) else m) []
    let L1 := { L with state := 3, lanes := 0xFF, peer := BitVec.ofNat 32 (peerHall.toNat + 65536 * peerPort.val), taps := cal,
                       spoiled := [], waiting := [], sent := [], lastSlots := [], heard := none, markers := [] }
    .next (checkUpstream ((s.setPort n.val L1).raiseLnk n.val 1))

/-- A lane loses lock: the port goes FAILED. -/
def execLinkLockLost (n : PortId) (lane : Fin 8) (s : State) : Out :=
  let L := s.port n.val
  if L.state = 2 || L.state = 3 then
    .next (portState s n.val 4 (L.lanes &&& ~~~(BitVec.ofNat 8 (2 ^ lane.val))))
  else .next s

/-- The active table of a port has a kind 0b10 entry for the cells of slot sl of port rx (R377, R379). -/
def LinkPort.claims (L : LinkPort) (rx sl : Nat) : Bool :=
  (if L.active then L.tableB else L.tableA).any fun kv =>
    kv.1 % 32 != 0 && kv.2.kind == 2 && kv.2.rxPort.toNat == rx && kv.2.rxSlot.toNat == sl

/-- The cells that are queued on a port. -/
def LinkPort.queued (L : LinkPort) : Nat :=
  (L.queues.map fun kv => kv.2.length).sum + (L.backlog.map fun kv => kv.2.length).sum + L.retxQ.length + L.ctlQ.length +
  (L.mgmtQ.map fun kv => kv.2.flatten.length).sum

/-- The neighbour is in electrical idle: a port in use goes to IDLE, cells queued on it and through-run cells bound for it are
discarded (R388). -/
def execLinkSignalLost (n : PortId) (s : State) : Out :=
  let L := s.port n.val
  if L.state = 0 then .next s
  else
    -- a FAILED port stays so until it is retrained (R364)
    let st := if L.state = 4 then 4 else 1
    let bound := fun (t : Thru) (rx : Nat) => L.claims rx t.slot
    let s1 := portState s n.val st 0
    let s2 := s1.setPort n.val ({ s1.port n.val with queues := [], backlog := [], retxQ := [], ctlQ := [], mgmtQ := [], turn := 0, sent := [],
                                                     lastSlots := [] }.count ctrTxDrop L.queued)
    .next (s2.ports.foldl (fun (s : State) (kv : Nat × LinkPort) =>
      let gone := kv.2.thru.filter fun t => bound t kv.1
      if gone.isEmpty then s
      else (s.setPort kv.1 { s.port kv.1 with thru := (s.port kv.1).thru.filter fun t => !bound t kv.1 }).setPort n.val
        ((if kv.1 = n.val then { s.port n.val with thru := (s.port n.val).thru.filter fun t => !bound t kv.1 } else s.port n.val).count
          ctrTxDrop gone.length)) s2)

/-- LNK_CTRL.retrain from the physical function's window: an enabled port trains. -/
def execRetrain (w : WinId) (n : PortId) (s : State) : Out :=
  if w.val != 0 || !pageShown s 0 (pageLnk + n.val) || !(s.port n.val).enable || (s.port n.val).state = 0 then .next s else .next (portState s n.val 2 0)

/-- The peer leaves electrical idle or begins retraining: a port in IDLE, FAILED or UP trains. -/
def execPeerLeavesElectricalIdle (n : PortId) (s : State) : Out :=
  let L := s.port n.val
  if L.enable && (L.state = 1 || L.state = 4 || L.state = 3) then .next (portState s n.val 2 0) else .next s

/-! ### OUTBOUND_SEND (R382, R383) -/

/-- Cells of a tile message: head, and one payload cell for each two granules (Table 11.3). -/
def tileCells (r : RouteRec) (gs : List Granule) : List Cell :=
  let ps := pairs gs
  let head : Cell :=
    { destHall := r.destHall
      kind := 1
      destPart := BitVec.ofNat 4 r.destPart
      flow := r.flow
      last := ps.isEmpty
      retx := false
      target := r.tile
      payload := BitVec.ofNat 512 (r.granule + 65536 * gs.length) }
  head :: ((List.range ps.length).zip ps).map fun ip =>
    { destHall := r.destHall, kind := 2, destPart := BitVec.ofNat 4 r.destPart, flow := r.flow, last := ip.1 + 1 == ps.length,
      retx := false, target := r.tile,
      payload := (((ip.2.getD 1 0) ++ (ip.2.getD 0 0) : BitVec 512)) }

/-- The oldest whole SEND to the outbound range goes through its route entry into the port's queue, which takes it while it has
room (log entry 22); an index with no entry makes the gate tile raise ROUTE_FAULT with ext set. -/
def execOutboundSend (p : PartId) (s : State) : Out :=
  let P := s.part p.val
  let T := s.tile P.gate
  match T.outbound.find? fun o => o.got.length == o.n with
  | none => .next s
  | some o =>
    let s1 := s.setTile P.gate { T with outbound := T.outbound.erase o }
    match P.image.bind fun img => img.outRoutes.find? fun r => r.index == o.g0 - outboundBase with
    | none => .next (tileFault s1 P.gate codeRoute 0 true)
    | some r =>
      let cs := tileCells r o.got
      let L := s.port r.port
      if L.state = 1 || ((L.backlogOf p.val).isEmpty && decide ((L.queue p.val).length + cs.length ≤ 1024)) then
        .next (enqueue s1 p.val r.port cs)
      else .next s

/-! ### Cells on the link (R365, Table 11.3) -/

/-- The 18 words of bytes 0–71. -/
def cellWords (c : Cell) : List Word :=
  let flags := (if c.flow then 1 else 0) + (if c.last then 2 else 0) + (if c.retx then 4 else 0)
  BitVec.ofNat 32 (c.destHall.toNat + 65536 * (c.kind.toNat + 16 * c.destPart.toNat) + 16777216 * flags) :: c.target ::
    (List.range 16).map fun i => c.payload.extractLsb' (32 * i) 32

/-- The cell that 18 words carry. -/
def cellOf (ws : List Word) : Cell :=
  let h := ws.getD 0 0
  { destHall := h.extractLsb' 0 16, kind := h.extractLsb' 16 4, destPart := h.extractLsb' 20 4
    flow := h.getLsbD 24, last := h.getLsbD 25, retx := h.getLsbD 26, target := ws.getD 1 0
    payload := BitVec.ofNat 512 ((ws.drop 2).foldr (fun w n => w.toNat + 4294967296 * n) 0) }

/-- Check bits of the words of a cell whose contents the table gives. -/
def TxCell.check : TxCell → List (BitVec 7)
  | .data c => (cellWords c).map Config.secded
  | _ => []

/-- A received word and its check bits: as they are, with the one bit that is wrong put right, or none where no single bit is (R365,
R399). -/
def fixWord (w : Word) (k : BitVec 7) : Option Word :=
  if Config.secded w = k then some w
  else match (List.range 32).find? fun i => Config.secded (w ^^^ (1#32 <<< i)) = k with
    | some i => some (w ^^^ (1#32 <<< i))
    | none => if (List.range 7).any fun i => Config.secded w = k ^^^ (1#7 <<< i) then some w else none

/-- The cell in 88 received bytes, corrected; none when a word of it is not correctable. -/
def cellReceived (raw : BitVec 704) : Option Cell :=
  ((List.range 18).mapM fun i => fixWord (raw.extractLsb' (32 * i) 32) (raw.extractLsb' (576 + 7 * i) 7)).map cellOf

/-! ### SLOT_OPEN (R365, R374, R377, R378, R387) -/

def LinkPort.entry (L : LinkPort) (slot : Nat) : SlotEntry :=
  if slot % 32 = 0 then { kind := 3 } else FMap.get {} (if L.active then L.tableB else L.tableA) slot

/-- The next cell of the Sufin, Roundhouse and hall-fetch messages: that of the message under way, else of the next in the rotation (R378). -/
def LinkPort.nextMgmt (L : LinkPort) : Option (Cell × LinkPort) :=
  let q := fun (k : Nat) => FMap.get [] L.mgmtQ k
  (([0, 1, 2].map fun i => (L.turn + i) % 3).find? fun k => (q k).any fun m => !m.isEmpty).bind fun k =>
    match (q k).filter fun m => !m.isEmpty with
    | (c :: []) :: ms => some (c, { L with mgmtQ := FMap.set [] L.mgmtQ k ms, turn := (k + 1) % 3 })
    | (c :: cs) :: ms => some (c, { L with mgmtQ := FMap.set [] L.mgmtQ k (cs :: ms), turn := k })
    | _ => none

/-- Up to `n` of those cells. -/
def LinkPort.takeTurns : Nat → LinkPort → List Cell × LinkPort
  | 0, L => ([], L)
  | n + 1, L => match L.nextMgmt with
    | some (c, L1) =>
      let r := LinkPort.takeTurns n L1
      (c :: r.1, r.2)
    | none => ([], L)

/-- Takes up to `n` management cells in their order; without a hall address no cell of the module's own is sent (R378, R381). -/
def takeMgmt (L : LinkPort) (assigned : Bool) (n : Nat) : List TxCell × LinkPort :=
  let a := L.retxQ.take n
  let b := L.ctlQ.take (n - a.length)
  let L1 := { L with retxQ := L.retxQ.drop a.length, ctlQ := L.ctlQ.drop b.length }
  let c := if assigned then L1.takeTurns (n - a.length - b.length) else ([], L1)
  (a ++ b ++ c.1.map .data, c.2)

/-- The cells that the slot's kind sends: a partition's queue, or the through-run cells of its entry. -/
def slotCells (s : State) (n slot : Nat) : List Cell × State :=
  let L := s.port n
  let e := L.entry slot
  if !s.hall.timetable then ([], s)
  else if e.kind = 1 then
    match FMap.get none L.owners slot with
    | some p =>
      if s.hall.addr = 0 then ([], s)
      else (((L.queue p).take 128), s.setPort n ((L.setQueue p ((L.queue p).drop 128)).refill p))
    | none => ([], s)
  else if e.kind = 2 then
    let R := s.port e.rxPort.toNat
    let cs := (R.thru.filter fun t => t.slot == e.rxSlot.toNat && decide (s.slotNow < t.since + 16)).take 128
    (cs.map (·.cell), s.setPort e.rxPort.toNat { R with thru := R.thru.filter fun t => !cs.contains t })
  else ([], s)

/-- A slot opens once: its cells go out, and the port keeps them for 64 slots. With timetable_on zero a slot of kind 0b01 or 0b10 carries idle
cells (R372). -/
def execSlotOpen (n : PortId) (s : State) : Out :=
  let now := s.slotNow
  let L := s.port n.val
  if L.state != 3 || L.opened = now + 1 then .next s
  else
    let slot := now % 1024
    let frame := now / 1024
    let out := slotCells s n.val slot
    let L1 := out.2.port n.val
    let L2 := if slot = 0 then { L1 with ctlQ := .time s.hall.depth s.hall.addr L1.heard :: L1.ctlQ, markers := (frame :: L1.markers).take 4 } else L1
    let kind := (L.entry slot).kind
    let m := takeMgmt L2 (s.hall.addr != 0) (if !s.hall.timetable && (kind = 1 || kind = 2) then 0 else 128 - out.1.length)
    let cells := out.1.map .data ++ m.1
    let kept := (m.2.sent.map fun c => { c with age := c.age + 1 }).filter fun c => c.age < 64
    let sent := ((List.range cells.length).zip cells).map fun ic =>
      ({ frame := frame % 65536, slot := slot, idx := ic.1, cell := ic.2, check := ic.2.check } : SentCell)
    .next (out.2.setPort n.val { m.2 with
      opened := now + 1
      sent := kept ++ sent
      lastSlots := ((frame % 65536, slot) :: m.2.lastSlots).take 64
      txCells := satAdd64 m.2.txCells cells.length })

/-- A through-run cell that no entry has claimed within 16 slots of its arrival is discarded (R379). -/
def execThruExpire (n : PortId) (s : State) : Out :=
  let L := s.port n.val
  match L.thru.find? fun t => t.since + 16 ≤ s.slotNow with
  | some t => .next (s.setPort n.val ({ L with thru := L.thru.erase t }.count ctrThruDrop 1))
  | none => .next s

/-! ### Reception (R365, R379–R381, R384, R386, R387) -/

/-- A tile message under way from a port: its partition, channel and target (R384). -/
def headKey (c : Cell) : Nat := (c.destPart.toNat * 2 + if c.flow then 1 else 0) * 2 ^ 32 + c.target.toNat

/-- A cell of this module reaches its partition: tile heads and payloads enter by the gate; Signal Box, Roundhouse and Sufin cells
are messages that act by their own commands. Messages for different tiles or channels may arrive mixed: a payload goes with the head of its own
target and channel. -/
def deliverOwn (s : State) (n : Nat) (c : Cell) : State :=
  let p := c.destPart.toNat
  let P := s.part p
  if !P.loaded || 8 ≤ c.kind.toNat then s.setPort n ((s.port n).count ctrRxDrop 1)
  else
    let chan : Chan := if c.flow then .flow else .sched
    let L := s.port n
    match tileAt c.target.toNat with
    | none => s
    | some t =>
      let give := fun (left : Nat) (b : FlitBody) => (s.setPort n { L with heads := FMap.set 0 L.heads (headKey c) left }).setPart p { P with
        rimOut := P.rimOut ++ [(chan, { src := .link n, dst := t, body := b })] }
      if c.kind = 1 then
        let k := (c.payload.extractLsb' 16 16).toNat
        give k (.sendHead (c.payload.extractLsb' 0 16).toNat k)
      else if c.kind = 2 then
        let k := FMap.get 0 L.heads (headKey c)
        let g := c.payload.extractLsb' 0 256
        if k = 0 then s else give (k - 2) (.payload (if k = 1 then [g] else [g, c.payload.extractLsb' 256 256]))
      else s

/-- A cell goes to this module, or through it. -/
def ownCell (s : State) (c : Cell) : Bool := s.hall.addr != 0 && c.destHall == s.hall.addr
def cellDest (s : State) (c : Cell) : CellDest := if ownCell s c then .part c.destPart else .thru

/-- A cell to be through-run is held under its port and slot; from a peer that is not in the hall's plan it is discarded, and so is one bound for a
port whose neighbour is in electrical idle (R379, R388). -/
def holdThru (s : State) (n slot : Nat) (c : Cell) (planned : Bool) : State :=
  if !planned then s.setPort n ((s.port n).count ctrThruDrop 1)
  else match s.ports.find? fun kv => kv.2.state == 1 && kv.2.claims n slot with
    | some kv => s.setPort kv.1 (kv.2.count ctrTxDrop 1)
    | none => s.setPort n { s.port n with thru := (s.port n).thru ++ [{ slot := slot, since := s.slotNow, cell := c }] }

/-- A good cell: idle, time and NAK cells act by their own commands; this module's go to its partition, others through-run. -/
def deliverCell (s : State) (n slot : Nat) (c : Cell) (planned : Bool) : State :=
  if c.kind = 0 || c.kind = 6 || c.kind = 7 then s
  else if ownCell s c then deliverOwn s n c
  else if c.destHall = 0 then (if c.retx then s else s.setPort n ((s.port n).count ctrRxDrop 1))
  else holdThru s n slot c planned

/-- Spoiled cells that are due again hold a later cell: any of them one to be through-run, one for the same partition, or for a partition that
cannot be read, one for a partition (R387). -/
def behind (due : List CellDest) (d : CellDest) : Bool :=
  match d with
  | .part p => due.any fun x => x == .part p || x == .unknown
  | _ => !due.isEmpty

/-- Of what a receiver holds: the cells that nothing before them holds any longer, and what stays. The first argument lists the places due before. -/
def release (s : State) (due : List CellDest) : List HeldCell → List (Nat × Cell) × List HeldCell
  | [] => ([], [])
  | .due f sl i d :: l =>
    let r := release s (due ++ [d]) l
    (r.1, .due f sl i d :: r.2)
  | .cell sl c :: l =>
    let r := release s due l
    if behind due (cellDest s c) then (r.1, .cell sl c :: r.2) else ((sl, c) :: r.1, r.2)

/-- The places that are due. -/
def dueOf (l : List HeldCell) : List CellDest := l.filterMap fun
  | .due _ _ _ d => some d
  | .cell _ _ => none

/-- The place of a spoiled cell is filled, by the slot that it was spoiled in; with nothing where the cell is idle, a time cell or a NAK. -/
def fillPlace (x : Spoiled) (c : Cell) (l : List HeldCell) : List HeldCell :=
  l.flatMap fun
    | .due f sl i d =>
      if f == x.frame && sl == x.slot && i == x.idx then (if c.kind = 0 || c.kind = 6 || c.kind = 7 then [] else [.cell x.slot c])
      else [.due f sl i d]
    | h => [h]

/-- A spoiled cell is counted and named in a NAK. A retransmission stands for the oldest cell that is due, and is due again behind the others;
spoiled a third time, it takes the port to FAILED (R386, R387; log entry 28). -/
def spoiledCell (s : State) (n frame slot idx : Nat) (again : Bool) (dest : CellDest) : State :=
  let L : LinkPort := (s.port n).count ctrFecUncorr 1
  let L1 : LinkPort := { L with ctlQ := L.ctlQ ++ [.nak frame slot idx] }
  match again, L.spoiled with
  | true, x :: rest =>
    let L2 : LinkPort := { L1 with spoiled := rest ++ [{ x with times := x.times + 1 }] }
    if 2 ≤ x.times then portState (s.setPort n L2) n 4 L2.lanes else s.setPort n L2
  | _, _ => s.setPort n { L1 with
      spoiled := L.spoiled ++ [{ frame := frame, slot := slot, idx := idx }], waiting := L.waiting ++ [.due frame slot idx dest] }

/-- Corrected codewords are counted at the port (R386). -/
def fecCounted (s : State) (n fec : Nat) : State := if fec = 0 then s else s.setPort n ((s.port n).count ctrFecCorr fec)

/-- A cell sent again is good: it takes the place of the oldest one due, and what is held no longer is delivered, each cell by its own slot. -/
def filledCell (s : State) (n : Nat) (x : Spoiled) (rest : List Spoiled) (c : Cell) (planned : Bool) : State :=
  let r := release s [] (fillPlace x c (s.port n).waiting)
  r.1.foldl (fun s (sc : Nat × Cell) => deliverCell s n sc.1 sc.2 planned) (s.setPort n { s.port n with spoiled := rest, waiting := r.2 })

/-- The header word of a spoiled cell, where it can be read: in a decoded codeword, corrected (R365). -/
def spoiledHeader (raw : BitVec 704) (x : CellNote) : Option Word :=
  if x.codeword then none else fixWord (raw.extractLsb' 0 32) (raw.extractLsb' 576 7)

/-- One received cell, its words corrected; one with an uncorrectable word, or in a codeword that was not decoded, is spoiled. While spoiled
cells are due again, later ones of their partition and those to be through-run wait. -/
def execLinkCellRx (n : PortId) (frame : BitVec 16) (slot : Fin 1024) (idx : Fin 128) (raw : BitVec 704) (x : CellNote) (fec : Byte)
    (s : State) : Out :=
  if (s.port n.val).state != 3 then .next s
  else
    let s0 := fecCounted s n.val fec.toNat
    match if x.codeword then none else cellReceived raw with
    | none =>
      let h := (spoiledHeader raw x).map fun w => cellOf [w]
      .next (spoiledCell s0 n.val frame.toNat slot.val idx.val ((h.map (·.retx)).getD x.again) ((h.map (cellDest s)).getD .unknown))
    | some c =>
      let L := s0.port n.val
      let s1 := if c.kind = 0 then s0 else s0.setPort n.val { L with rxCells := satAdd64 L.rxCells 1 }
      match c.retx, L.spoiled with
      | true, y :: rest => .next (filledCell s1 n.val y rest c x.planned)
      | _, _ =>
        if c.kind = 0 || c.kind = 6 || c.kind = 7 then .next s1
        else if behind (dueOf L.waiting) (cellDest s c) then
          .next (s1.setPort n.val { s1.port n.val with waiting := L.waiting ++ [.cell slot.val c] })
        else .next (deliverCell s1 n.val slot.val c x.planned)

/-- The cell as it is sent again: flags bit 2 set. -/
def TxCell.again : TxCell → TxCell
  | .data c => .data { c with retx := true }
  | .idle _ => .idle true
  | .time d h b _ => .time d h b true
  | .nak f s i _ => .nak f s i true

/-- The cell that the port sent at a place in its last 64 slots; what a slot sent beyond its cells was idle. -/
def LinkPort.sentAt (L : LinkPort) (frame slot idx : Nat) : Option TxCell :=
  match L.sent.find? fun x => x.frame == frame && x.slot == slot && x.idx == idx with
  | some x => some x.cell
  | none => if L.lastSlots.contains (frame, slot) then some (.idle false) else none

/-- A NAK: the named cell goes ahead of every other management cell; one no longer held takes the port to FAILED (R387). -/
def execNakRx (n : PortId) (frame : BitVec 16) (slot : Fin 1024) (idx : Fin 128) (s : State) : Out :=
  let L := s.port n.val
  if L.state != 3 then .next s
  else match L.sentAt frame.toNat slot.val idx.val with
    | some c => .next (s.setPort n.val ({ L with retxQ := L.retxQ ++ [c.again] }.count ctrRetx 1))
    | none => .next (portState s n.val 4 L.lanes)

/-! ### Slot tables (R374–R376, Table 11.6) -/

/-- At SWAP_FRAME the tables change roles, whatever the port's state. -/
def execSlotTableSwap (n : PortId) (s : State) : Out :=
  let L := s.port n.val
  if L.swapFrame != 0 && decide (L.swapAt ≤ s.ns / 65536) then
    .next ((s.setPort n.val { L with active := !L.active, swapFrame := 0, swapLate := 0 }).raiseLnk n.val 2)
  else .next s

/-- A loaded image stands in the way of an ownership change (Table 15.4). -/
def shareFree (s : State) (o : Option Nat) : Bool :=
  match o with
  | some p => !(s.part p).loaded
  | none => true

/-- CFG_WHILE_RUN or a cause 2 write of a window on a page: ERR_COUNT, ERR_FIRST and the header bit (R485). -/
def rejectWrite (s : State) (w page off cause : Nat) : State :=
  let x := s.header w page
  let x1 := { x with
    errCount := satAdd32 x.errCount 1
    errValid := true
    errCause := if x.errValid then x.errCause else BitVec.ofNat 3 cause
    errOffset := if x.errValid then x.errOffset else BitVec.ofNat 12 (off / 4 * 4)
    cfgReject := x.cfgReject || cause == 1
    badWrite := x.badWrite || cause == 2 }
  s.updateHeader w page x1

/-- The page offset of SLOT_DATA (Table 11.13). -/
def offSlotData : Nat := 0x04C

/-- SLOT_DATA: ownership is judged against the loaded images of both owners; a table entry only in the shadow table, never kind
0b01, kind 0b10 only where the slot is unowned, and not in the last 2 µs before an armed swap. -/
def execSlotDataWrite (w : WinId) (n : PortId) (v : Word) (s : State) : Out :=
  let L := s.port n.val
  let slot := (L.slotSel.extractLsb' 0 10).toNat
  let tableB := L.slotSel.getLsbD 11
  if w.val != 0 || !pageShown s 0 (pageLnk + n.val) || slot % 32 = 0 then .next s
  else if tableB = L.active then .next (s.raiseLnk n.val 4)
  else if L.swapFrame != 0 && decide (L.swapAt * 65536 ≤ s.ns + 2000) then .next (s.raiseLnk n.val 5)
  else
    let old := FMap.get none L.owners slot
    let new : Option Nat := if v.getLsbD 29 then some (v.extractLsb' 25 4).toNat else none
    let free := shareFree s old && shareFree s new
    let kept := old = new || !free
    let kind : BitVec 2 := v.extractLsb' 30 2
    let s0 := if old = new || free then s else rejectWrite s w.val (pageLnk + n.val) offSlotData 1
    if kind = 1 || (kind = 2 && (if kept then old else new).isSome) then .next (s0.raiseLnk n.val 4)
    else
      let s1 := if kept then s0 else s.setPort n.val { L with owners := FMap.set none L.owners slot new }
      let L1 := s1.port n.val
      let e : SlotEntry := { kind := if kind = 3 then 0 else kind, rxPort := v.extractLsb' 16 6, rxSlot := v.extractLsb' 0 10 }
      .next (s1.setPort n.val (if tableB then { L1 with tableB := FMap.set {} L1.tableB slot e }
                               else { L1 with tableA := FMap.set {} L1.tableA slot e }))

end Sys2Proof.Machine
end

