-- ==== Sys2Proof/Machine/HallTime.lean ====
section
/-! DEFINITION. The hall time unit (R366–R372). -/
namespace Sys2Proof.Machine

/-- Hall time moved by a signed count of 2^−16 ns. -/
def HallUnit.move (H : HallUnit) (d : Int) : HallUnit := { H with now := (Int.ofNat H.now + d).toNat }

/-- Enters DISCIPLINED at a depth (Table 11.5). -/
def discipline (s : State) (depth : Nat) : State :=
  { s with hall := { s.hall with state := 2, timetable := true, depth := depth } }.raiseHal 0

/-- The mean of the offsets held, toward zero. -/
def meanOffset (os : List Int) : Int := if os.isEmpty then 0 else (os.foldl (· + ·) 0).tdiv os.length

/-- Sixteen exchanges whose mean lies below 0.1 ns either way. -/
def settled (os : List Int) : Bool := os.length == 16 && decide ((os.foldl (· + ·) 0).natAbs * 10 < 16 * 65536)

/-- An exchange on the upstream port: OFFSET_LAST; a step on leaving FREQ_LOCK, or a correction by the mean of the last 16 offsets, which
each clk then slews (R366, R369, Table 11.5; log entry 30). -/
def correct (s : State) (n : Nat) (offset : Int) : State :=
  let H := { s.hall with offset := BitVec.ofInt 32 offset }
  if H.state = 0 || !H.refOn then { s with hall := H }
  else if H.state = 1 && !H.stepped then { s with hall := { H.move (-offset) with stepped := true, offsets := [], slew := 0 } }
  else
    let os := (offset :: H.offsets).take 16
    let s1 := { s with hall := { H with slew := -(meanOffset os) * 47000000, offsets := os } }
    if H.state != 2 && settled os then discipline s1 ((s.port n).peerDepth + 1) else s1

/-- One frame in 2^−16 ns (R373). -/
def frameUnits : Nat := 65536 * 65536

/-- The value of a calibration item that a user offset gives: the factory's and the offset's sum, saturated at the item's limits (R473; log
entry 63). -/
def calEffective (kind index : Nat) (user : Int) : Int :=
  if user = 0 then Config.factoryCal kind index
  else max (Config.calLow kind) (min (Config.calHigh kind) (Config.factoryCal kind index + user))
/-- What a user offset adds to a reading that the factory value corrects. -/
def calOffset (kind index : Nat) (user : Int) : Int :=
  if user = 0 then 0 else calEffective kind index user - Config.factoryCal kind index

/-- Calibrated path delay of a port's receiver: the factory value and the user offset (R369, Table 14.10). -/
def pathDelay (s : State) (n : Nat) : Int := calEffective 7 n (FMap.get 0 s.cal.user (65536 * 7 + n))

/-- t2: the receive time of the peer's marker at the connector, in this module's hall time. -/
def markerTime (s : State) (n : Nat) (m : TimeMsg) : Int := Int.ofNat s.hall.now - m.age - pathDelay s n

/-- Delay and offset of the exchange that a time cell completes (R369); none while the peer has heard no marker that this port still
knows. t3 is the start of the frame of the marker that the cell answers (log entry 113). -/
def exchange (s : State) (n : Nat) (m : TimeMsg) : Option (Int × Int) :=
  match m.back with
  | none => none
  | some (bits, t4) =>
    ((s.port n).markers.find? fun F => decide (F % 65536 = bits.toNat)).map fun F =>
      let there := markerTime s n m - m.t1
      let here := t4 - Int.ofNat (F * frameUnits)
      ((there + here).tdiv 2, (there - here).tdiv 2)

/-- What a time cell leaves at its port: peer, depth, delay, and the receive time that the next time cell returns. -/
def timePort (s : State) (n : Nat) (m : TimeMsg) : LinkPort :=
  let L := s.port n
  { L with
    delay := ((exchange s n m).map fun e => BitVec.ofInt 32 e.1).getD L.delay
    peer := BitVec.ofNat 32 (m.hall.toNat + 65536 * (m.port % 64))
    peerDepth := min m.depth 255
    heard := some (BitVec.ofInt 16 (m.t1.tdiv (Int.ofNat frameUnits)), markerTime s n m) }

/-- A time cell completes an exchange on an UP port: its delay, its peer, its peer's depth; the upstream port's offset corrects hall time;
a root that hears another raises ROOT_CONFLICT. -/
def execTimeCellRx (n : PortId) (m : TimeMsg) (s : State) : Out :=
  if (s.port n.val).state != 3 then .next s
  else
    let s0 := s.setPort n.val (timePort s n.val m)
    let k := 65536 * 7 + n.val
    let used := FMap.set 0 s0.cal.inForce k (FMap.get 0 s0.cal.user k)
    let s1 := { s0 with cal := { s0.cal with inForce := used } }
    if s.hall.root then .next (if m.depth = 0 then s1.raiseHal 4 else s1)
    else
      let s2 := checkUpstream s1
      match exchange s n.val m with
      | some e => .next (if upstreamPort s2 = some n.val then correct s2 n.val e.2 else s2)
      | none => .next s2

/-- A rising HALL_EPOCH edge: the root takes it as its time, another module checks against it (R368); before lock it is unused
(Table 14.11). -/
def execHallEpochEdge (s : State) : Out :=
  let H := s.hall
  if !H.refOn then .next s
  else if H.root then
    let s1 := { s with hall := { H with now := H.epochNext.toNat * 65536, rem := 0, slew := 0, epochNext := H.epochNext + 1000000000 } }
    .next (if H.state = 2 then s1 else discipline s1 0)
  else
    let second := 1000000000 * 65536
    let past := H.now % second
    .next (if 5 * 65536 < min past (second - past) then s.raiseHal 3 else s)

/-- HALL_REF appears and the clocks are locked to it. -/
def execHallRefLock (s : State) : Out :=
  let H := s.hall
  .next { s with hall := { H with
    refOn := true
    state := if H.state = 0 then 1 else H.state
    stepped := if H.state = 0 then false else H.stepped
    offsets := if H.refOn then H.offsets else [] } }

/-- HALL_REF is lost: DISCIPLINED goes to HOLDOVER, FREQ_LOCK to FREE. -/
def execHallRefLost (s : State) : Out :=
  let H := { s.hall with refOn := false, offsets := [] }
  if H.state = 2 then .next ({ s with hall := { H with state := 3, depth := 0xFF, since := s.ns } }.raiseHal 1)
  else .next { s with hall := { H with state := if H.state = 1 then 0 else H.state } }

/-- holdover_ms as the unit takes it (Table 11.12). -/
def HallUnit.holdNs (H : HallUnit) : Nat := 1000000 * max 1 (min 200 H.holdover)

/-- holdover_ms has passed in HOLDOVER: timetabled cells stop and HALL_LOST is raised. -/
def execHoldoverExpire (s : State) : Out :=
  let H := s.hall
  if H.state = 3 && H.timetable && decide (H.since + H.holdNs ≤ s.ns) then
    .next ({ s with hall := { H with timetable := false } }.raiseHal 2)
  else .next s

end Sys2Proof.Machine
end

