-- ==== Sys2Proof/Machine/HostLink.lean ====
section
/-! DEFINITION. The host port's link, bus mastering and interrupt vectors (R390–R394, R461). -/
namespace Sys2Proof.Machine

/-- A conventional reset or the loss of the link: PCI configuration space is reset, prompt fetches in progress fail; windows, rows
and rings keep what they hold. A loss finds a link that is down already unchanged. -/
def execHostDown (why : HostLoss) (s : State) : Out :=
  if why = .linkLoss && !s.host.up then .next s
  else
    let vs := s.vifs.map fun (kv : Nat × Vif) => (kv.1, { kv.2 with busMaster := false, d3hot := false, enabled := false })
    let rs := s.rows.map fun (kv : Nat × Row) =>
      (kv.1, { kv.2 with fetch := if kv.2.fetch = .running then .failed else kv.2.fetch })
    let blank : Vif := {}
    .next ({ s with host := { s.host with up := false }, vifs := vs.filter fun kv => kv.2 != blank, rows := rs }.raise pagePci 0)

/-- The data link becomes active: PCI_STAT; after a loss it is a retrain and raises HOST_UP. -/
def linkUp (s : State) (speed width : Nat) (flit : Bool) : State :=
  let h := { s.host with up := true, wasUp := true, speed := speed, width := width, flit := flit }
  if s.host.up then { s with host := h }
  else if s.host.wasUp then { s with host := { h with retrains := satAdd32 h.retrains 1 } }.raise pagePci 1
  else { s with host := h }

def execPerstRelease (speed : Fin 8) (width : BitVec 4) (flit : Bool) (s : State) : Out := .next (linkUp s speed.val width.toNat flit)
def execHostLinkActive (speed : Fin 8) (width : BitVec 4) (flit : Bool) (s : State) : Out := .next (linkUp s speed.val width.toNat flit)

/-- The records between CONSUMED and PRODUCED. -/
def Ring.unconsumed (g : Ring) : List Rec := g.recs.drop (g.recs.length - (g.produced - g.consumed).toNat)

/-- The posted writes that give a ring's unconsumed records again: same slots, same bytes (R283). -/
def Ring.again (g : Ring) : List (Nat × List Byte) :=
  let rs := g.unconsumed
  let first := g.produced.toNat + 2 ^ 32 - rs.length
  ((List.range rs.length).zip rs).map fun ir =>
    let p := (first + ir.1) % 2 ^ 32
    (g.base.toNat + 16 * (p % 2 ^ g.size), recordBytes g p ir.2.data)

/-- A function's configuration space is written. When Bus Master Enable returns on it, or it returns from D3hot to D0 with that bit set, its
unconsumed records are written again and counted; with the bit clear or in D3hot its records wait (R283, R393, Table 11.9; log entry 119). -/
def execBusMasterEnable (c : ConfigWrite) (s : State) : Out :=
  let w := c.fn.val
  let v := s.vif w
  let was := v.busMaster && !v.d3hot
  let s1 := s.setVif w { v with busMaster := c.busMaster, d3hot := c.d3hot, enabled := true }
  if was || !(c.busMaster && !c.d3hot) then .next s1
  else
    let writes := if s.host.up then
        (s.rings.filter fun kv => kv.1 / 32 == w && kv.2.enable).flatMap fun kv => kv.2.again
      else []
    .next { s1 with host := { s1.host with
      posted := s1.host.posted ++ writes
      rewrites := satAdd32 s1.host.rewrites writes.length } }

/-- The host writes an entry of a function's MSI-X table. A message that the pending bit holds goes out once the vector is unmasked (R391). -/
def execVectorUnmask (fn : WinId) (e : VectorWrite) (s : State) : Out :=
  let k := 64 * fn.val + e.vec.val
  let h := { s.host with unmasked := FMap.set false s.host.unmasked k !e.mask, msix := FMap.set {} s.host.msix k { addr := e.addr, data := e.data } }
  let sent := { h.message fn.val e.vec.val with pended := FMap.set false h.pended k false }
  if !e.mask && FMap.get false h.pended k then .next { s with host := sent } else .next { s with host := h }

end Sys2Proof.Machine
end

