-- ==== Sys2Proof/Machine/Power.lean ====
section
/-! DEFINITION. Sensors, the power governor, the cap, shutdown and wear (R430–R449). -/
namespace Sys2Proof.Machine

def State.unit (s : State) (u : Nat) : Heat := FMap.get {} s.heat u
def State.setUnit (s : State) (u : Nat) (h : Heat) : State := { s with heat := FMap.set {} s.heat u h }
/-- The unit number of a rim stack (Table 13.14). -/
def stackUnit (k : Nat) : Nat := 144 + k
def State.raiseThm (s : State) (bit : Nat) : State := s.raise pageThm bit
def State.anySplit (s : State) : Bool := s.heat.any fun kv => kv.2.split
def Heat.thetaOf (h : Heat) (r : Nat) : Rat := h.theta.getD (Config.factoryTheta r)
/-- A quotient; by zero it is a free value (log entry 31). -/
def quot (a b : Rat) : Rat := if b = 0 then Config.overZero a else a / b

/-- The user offset of a calibration item, taken into force (Table 14.10), as it adds to a reading. -/
def State.takeOffset (s : State) (kind index : Nat) : State × Int :=
  let k := 65536 * kind + index
  let v := FMap.get 0 s.cal.user k
  ({ s with cal := { s.cal with inForce := FMap.set 0 s.cal.inForce k v } }, calOffset kind index v)

/-! ### Losses of units (R401, R439, R445) -/

/-- A rim stack fails or is parked: STACK_OUT is recorded; its mirror is rewritten and its masters refetched (log entry 36). -/
def stackGoesOut (s : State) (k : Nat) (parked : Bool) : State :=
  let u := stackUnit k
  let h := s.unit u
  if h.out then s
  else
    let s0 := s.setUnit u { h with out := true, parked := parked }
    -- masters are held once: those of this stack are fetched again from their sources
    let s1 := ((s0.house.masters.filter fun m => m.home == k).map (·.digest)).foldl (fun s d => fetchMaster s d none) s0
    let s2 := if parked then s1.raiseThm 1 else s1
    errorEvent s2 { cls := 0x41, part := none, region := none, tile := none, detail := 0, loc := BitVec.ofNat 32 k }

def execStackOut (k : StackId) (parked : Bool) (s : State) : Out := .next (stackGoesOut s k.val parked)

/-- The governor parks a region, as class 0x31; detail 1 for its sensors. -/
def parkRegion (s : State) (r : RegionId) (detail : Byte) : State :=
  let h := s.unit r.val
  if h.parked || !(s.region r.val).inService then s
  else regionEvent ((s.setUnit r.val { h with parked := true }).raiseThm 1) r 0x31 detail

/-! ### Shutdown (R446) -/

/-- SHUTDOWN and its event record; then every loaded partition halts safe with cause THERMAL; one that is halted safe already takes
the cause. -/
def shutdown (s : State) : State :=
  if s.gov.shutdown then s
  else
    let s1 := { s with gov := { s.gov with shutdown := true } }.raiseThm 2
    let s2 := toHistory s1 { time := s.ns, cls := Config.shutdownClass, part := none, region := none, tile := 0, detail := 0, step := 0,
                             loc := 0, state := 3, outcome := 4 }
    (List.range 16).foldl (fun (s : State) (p : Nat) =>
      if !(s.part p).loaded then s
      else if (s.part p).rstate = 3 then s.mapPart p fun P => { P with cause := 9 }
      else haltSafe s p 9) s2

def execBusbarVoltageFault (_v : VoltFault) (s : State) : Out := .next (shutdown s)

def execBusbarLost (busB : Bool) (s : State) : Out :=
  .next ({ s with gov := if busB then { s.gov with busB := true } else { s.gov with busA := true } }.raiseThm 7)

def execBusbarRestored (busB : Bool) (s : State) : Out :=
  .next { s with gov := if busB then { s.gov with busB := false } else { s.gov with busA := false } }

/-! ### Readings (R435–R439, R442, R447) -/

/-- A temperature in its plausible range (Table 13.4). -/
def plausible (v : Int) : Bool := decide (0 ≤ v) && decide (v ≤ 150 * 16)

def maxOpt : Option Int → Option Int → Option Int
  | some a, some b => some (max a b)
  | some a, none => some a
  | none, b => b

/-- Cycle counting (R447): a fall of 20 °C from a maximum, then a rise of 20 °C from the minimum that follows, in the bin of the fall. -/
def Heat.cycle (h : Heat) (t : Int) : Heat :=
  match h.bottom with
  | none =>
    let top := max (h.top.getD t) t
    if 320 ≤ top - t then { h with top := some top, bottom := some t } else { h with top := some top }
  | some b =>
    let low := min b t
    if 320 ≤ t - low then
      let fall := h.top.getD t - low
      let h1 := if fall < 640 then { h with cyc20 := satAdd32 h.cyc20 1 }
                else if fall < 960 then { h with cyc40 := satAdd32 h.cyc40 1 } else { h with cyc60 := satAdd32 h.cyc60 1 }
      { h1 with top := some t, bottom := none }
    else { h with bottom := some low }

/-- A unit takes the readings of one millisecond: `rs` and `ps` are its governing sensors' readings with user offsets, and with
negative ones as zero; `bad` of them are implausible, and `other` of its further sensors. -/
def Heat.read (h : Heat) (rs ps : List (Option Int)) (bad other : Nat) : Heat :=
  let g := rs.foldl maxOpt none
  let h1 := { h with
    gov := if g.isSome then g else h.gov
    guard := if g.isSome then ps.foldl maxOpt none else h.guard
    bad := (bad :: h.bad).take 16
    implausible := satAdd32 h.implausible (bad + other) }
  match h1.gov with
  | some t => h1.cycle t
  | none => h1

/-- Two implausible readings within 16 consecutive milliseconds (R439). -/
def Heat.unsound (h : Heat) : Bool := decide (2 ≤ h.bad.foldl (· + ·) 0)

def keep (ok : Bool) (v : Int) : Option Int := if ok then some v else none

/-- One region's readings (R436–R438); its park for unsound sensors comes with R445's first step. -/
def readRegion (volts : Nat) (s : State) (x : RegionId × RegionReading) : State :=
  let r := x.1.val
  let o := x.2
  let (s1, ja) := s.takeOffset 2 (2 * r)
  let (s2, jb) := s1.takeOffset 2 (2 * r + 1)
  let (s3, tl) := s2.takeOffset 3 (2 * r)
  let (s4, tu) := s3.takeOffset 3 (2 * r + 1)
  let (s5, oc) := s4.takeOffset 5 r
  let okA := plausible (o.ja + ja); let okB := plausible (o.jb + jb)
  let okL := plausible (o.tierL + tl); let okU := plausible (o.tierU + tu)
  let cur := o.current + oc
  let okC := decide (0 ≤ cur) && decide (cur ≤ 14000)
  let h := s5.unit r
  let count := fun (a b : Bool) => (if a then 0 else 1) + (if b then 0 else 1)
  let h1 := { h with
    a := keep okA (o.ja + ja), b := keep okB (o.jb + jb), lower := keep okL (o.tierL + tl), upper := keep okU (o.tierU + tu)
    power := if okC then cur.toNat * volts else h.power
    apart := if okA && okB && decide (128 < ((o.ja + ja) - (o.jb + jb)).natAbs) then h.apart + 1 else 0 }
  let h2 := h1.read [h1.a, h1.b] [keep okA (o.ja + max ja 0), keep okB (o.jb + max jb 0)] (count okA okB) (count okL okU)
  let enter := !h2.split && decide (3 ≤ h2.apart)
  let h3 := if enter then { h2 with split := true, wasSplit := true } else h2
  let h4 := match h3.gov with
    | some t => { h3 with n := h3.n + 1, sumDiff := h3.sumDiff + (t - s.gov.tin), sumPower := h3.sumPower + h3.power }
    | none => h3
  let hot := !okL || !okU || decide (85 * 16 < max (o.tierL + tl) (o.tierU + tu))
  let s6 := (s5.setUnit r h4).setRegion r { s5.region r with hotNext := hot }
  let s7 := if okA && okB && okL && okU && okC then s6 else s6.raiseThm 4
  if enter then s7.raiseThm 3 else s7

def readStack (s : State) (x : StackId × Int) : State :=
  let u := stackUnit x.1.val
  let (s1, off) := s.takeOffset 4 x.1.val
  let ok := plausible (x.2 + off)
  let h := { s1.unit u with a := keep ok (x.2 + off) }
  let s2 := s1.setUnit u (h.read [h.a] [keep ok (x.2 + max off 0)] (if ok then 0 else 1) 0)
  if ok then s2 else s2.raiseThm 4

/-- Coolant: the higher plausible inlet, or 40 °C with COOLANT_SENSE; the outlets are read for their plausibility (Table 13.4); flows below 36 L/min on both channels for 100 ms (R442). -/
def readCoolant (s : State) (g : GovReading) : State :=
  let okIn := fun (v : Int) => decide (0 ≤ v) && decide (v ≤ 100 * 16)
  let okF := fun (v : Int) => decide (0 ≤ v) && decide (v ≤ 12000)
  let t := maxOpt (keep (okIn g.inletA) g.inletA) (keep (okIn g.inletB) g.inletB)
  let fa := if okF g.flowA then g.flowA else s.gov.flowA
  let fb := if okF g.flowB then g.flowB else s.gov.flowB
  let low := if fa < 3600 && fb < 3600 then s.gov.lowFlow + 1 else 0
  let inForce := decide (100 ≤ low)
  let s1 := { s with gov := { s.gov with tin := t.getD 640, flowA := fa, flowB := fb, lowFlow := low, coolantLow := inForce } }
  let s2 := if okIn g.inletA && okIn g.inletB && okIn g.outletA && okIn g.outletB && okF g.flowA && okF g.flowB then s1 else s1.raiseThm 4
  let s3 := if t.isSome then s2 else s2.raiseThm 6
  if inForce && !s.gov.coolantLow then s3.raiseThm 5 else s3

/-! ### The duty lever (R443, R444) -/

def State.busLost (s : State) : Bool := s.gov.busA || s.gov.busB
/-- The limit in force, in W. -/
def State.limit (s : State) : Rat := if s.busLost && decide (13000 < s.gov.cap) then 13000 else s.gov.cap

def dutyLever (s : State) (p1ms p1s : Nat) : State :=
  let lim := s.limit
  let beyond := if lim < (p1ms : Rat) then s.gov.beyond + 1 else 0
  let d := s.gov.duty
  let d1 := if 28000 < p1ms || lim < (p1s : Rat) || 20 ≤ beyond then max (d - 20) 20
            else if (p1ms : Rat) ≤ lim * (98 / 100) && (p1s : Rat) ≤ lim * (98 / 100) then min (d + 10) 280 else d
  { s with gov := { s.gov with p1ms := p1ms, p1s := p1s, beyond := beyond, duty := d1 } }

def execFastLimit (watts : Nat) (s : State) : Out :=
  if 28500 < watts then .next ({ s with gov := { s.gov with duty := max (s.gov.duty - 40) 20 } }.raiseThm 8) else .next s

/-! ### The thermal lever (R440, R445) -/

/-- Throttle threshold of a unit, 1/16 °C (Table 13.5). -/
def throttleAt (u : Nat) (h : Heat) : Int := if u < 144 then (if h.split then 95 * 16 else 100 * 16) else 95 * 16
def parkAt (u : Nat) (h : Heat) : Int := if u < 144 then (if h.split then 113 * 16 else 118 * 16) else 105 * 16
def shutAt (h : Heat) : Int := if h.split then 120 * 16 else 125 * 16

def Heat.reaches (h : Heat) (t : Int) : Bool :=
  match h.guard with
  | some v => decide (t ≤ v)
  | none => false

/-- Step 1: parks, for sensors and for heat. -/
def parks (s : State) : State :=
  let s1 := (List.finRange 144).foldl (fun (s : State) (r : Fin 144) =>
    let h := s.unit r.val
    if h.unsound then parkRegion s r 1 else if h.reaches (parkAt r.val h) then parkRegion s r 0 else s) s
  (List.range 24).foldl (fun (s : State) k =>
    let h := s.unit (stackUnit k)
    if h.unsound || h.reaches (parkAt (stackUnit k) h) then stackGoesOut s k true else s) s1

/-- Step 2: a region that this reading finds at its shutdown threshold, in service or not. -/
def tooHot (s : State) (g : GovReading) : Bool :=
  g.regions.any fun x => (s.unit x.1.val).reaches (shutAt (s.unit x.1.val))

/-- Units that the thermal lever may act on: stacks in service; regions in service of a partition that is not held for recovery. -/
def leverUnits (s : State) : List Nat :=
  ((List.range 144).filter fun r => (s.region r).inService && (match partOfRegion s r with
    | some p => (s.part p).rstate != 1 && (s.part p).rstate != 2
    | none => false)) ++
  ((List.range 24).map stackUnit).filter fun u => !(s.unit u).out

/-- Step 3: the unit with the smallest headroom, the lowest number first. -/
def hottestUnit (s : State) : Option Nat :=
  ((leverUnits s).foldl (fun (a : Option (Nat × Int)) u =>
    let h := s.unit u
    match h.gov with
    | none => a
    | some t =>
      let room := throttleAt u h - t
      match a with
      | none => some (u, room)
      | some (_, m) => if room < m then some (u, room) else a) none).map (·.1)

/-- The power, in W, at which a region's level rises (R445 step 5). -/
def allowance (s : State) (r : Nat) : Rat :=
  quot (95 - (s.gov.tin : Rat) / 16 - (if s.anySplit then 5 else 0)) ((s.unit r).thetaOf r)

/-- The level of step 5. -/
def nextLevel (s : State) (u : Nat) (g : Nat) : Nat :=
  let h := s.unit u
  match h.gov with
  | none => g
  | some t =>
    let thr := throttleAt u h
    let p : Rat := (h.power : Rat) / 1000000
    let beyond := u < 144 && decide (allowance s u < p)
    let under := 144 ≤ u || decide (p ≤ allowance s u * (95 / 100))
    if thr ≤ t || beyond then min (g + 1) 15 else if t ≤ thr - 48 && under then g - 1 else g

/-- Steps 3 to 5. -/
def thermalLever (s : State) : State :=
  match hottestUnit s with
  | none => { s with gov := { s.gov with hottest := none, carrier := none } }
  | some u =>
    let g := s.gov.level
    let old := if s.gov.carrier = some u then g else 0
    let g1 := nextLevel s u g
    let s1 := { s with gov := { s.gov with hottest := some u, carrier := some u, level := g1 } }
    if old = 0 && (g1 != 0 || g != 0) then s1.raiseThm 0 else s1

/-- GOVERNOR_TICK: readings, duty lever, parks, shutdown, thermal lever. -/
def execGovernorTick (g : GovReading) (s : State) : Out :=
  let s1 := g.regions.foldl (readRegion g.volts) (readCoolant s g)
  let s2 := g.stackTemps.foldl readStack s1
  let s3 := dutyLever { s2 with gov := { s2.gov with sumRim := s2.gov.sumRim + g.rim, n := s2.gov.n + 1 } } g.p1ms g.p1s
  let s4 := parks s3
  .next (thermalLever (if tooHot s4 g then shutdown s4 else s4))

/-! ### Windows of holds (R444, R445) -/

/-- Thermal hold clk of a partition in one window: 64 g while a region of it carries the level. -/
def thermalClk (s : State) (p : Nat) : Nat :=
  match s.gov.carrier with
  | some u => if u < 144 && partOfRegion s u == some p then 64 * s.gov.level else 0
  | none => 0

/-- One window's hold of a partition: duty and thermal clk added, at most 960; how a capped window is shared between the two counts is
a free value (log entry 37). -/
def windowHold (s : State) (p duty : Nat) : State :=
  let P := s.part p
  let therm := thermalClk s p
  if !P.loaded || P.frozen || duty + therm = 0 then s
  else
    let total := min 960 (duty + therm)
    let d := if duty + therm ≤ 960 then duty else max (960 - therm) (min (min duty 960) (Config.freeNat s.free))
    let s1 := { s with free := if duty + therm ≤ 960 then s.free else s.free + 1 }
    let n : Word := BitVec.ofNat 32 total
    (s1.mapPart p fun P => { P with rootMax := P.rootMax + n, holdClk := P.holdClk + n.setWidth 64, hsGovernor := true }).mapPart p fun P =>
      (P.count ctrDuty d).count ctrTherm (total - d)

/-- Lines that the module's logical columns read in 1,024 clk at the full rate (R29). -/
def fullWindow : Nat := 1024 * 108864

/-- Lines read in the window by the tiles that satisfy c. -/
def linesRead (s : State) (c : Tile → Bool) : Nat :=
  s.tiles.foldl (fun (n : Nat) (kv : Nat × Tile) => if c kv.2 then n + kv.2.reads else n) 0

/-- Partitions that have read, with the lines of each, most lines first; of equals the one at or next after `first`, which R444 leaves
open. -/
def readers (s : State) (first : PartId) : List (Nat × Nat) :=
  let each := (List.finRange 16).map fun k => let p := first + k; (p.val, linesRead s fun T => T.part == some p)
  sortBy (fun a b => decide (b.2 ≤ a.2)) (each.filter fun a => a.2 != 0)

/-- Duty hold clk of the next window (R444; log entry 38): with the module's duty above D, each partition in descending order of its own is
held for the clk in which it would read its share of the excess, until the predicted duty is within D. -/
def dutyHolds (s : State) (first : PartId) : List (Nat × Nat) :=
  let total := linesRead s fun _ => true
  let h := cdiv (1024 * (1000 * total - s.gov.duty * fullWindow)) (1000 * total)
  ((readers s first).foldl (fun (a : List (Nat × Nat) × Nat) (pn : Nat × Nat) =>
    if 1024 * s.gov.duty * fullWindow < 1000 * a.2 then (a.1 ++ [(pn.1, h)], a.2 - h * pn.2) else a)
    ([], 1024 * total)).1

/-- A new window of the column read duty begins. -/
def clearReads (s : State) : State :=
  { s with tiles := (s.tiles.map fun (kv : Nat × Tile) => (kv.1, { kv.2 with reads := 0 })).filter fun kv => kv.2 != Tile.reset }

/-- DUTY_WINDOW: the duty of the window that ends is measured, and the duty and thermal hold clk of the next are given to the
partitions. -/
def execDutyWindow (first : PartId) (s : State) : Out :=
  let holds := dutyHolds s first
  .next ((List.range 16).foldl (fun (s : State) p =>
    windowHold s p (((holds.find? fun a => a.1 == p).map (·.2)).getD 0)) (clearReads s))

/-! ### The cap (R441, R443) -/

/-- θ_r after 100 ms: unchanged below 60 W. -/
def Heat.learn (h : Heat) (r : Nat) : Heat :=
  let h1 := { h with n := 0, sumDiff := 0, sumPower := 0 }
  if h.n = 0 || h.sumPower < 60000000 * h.n then h1
  else
    let sample : Rat := quot ((h.sumDiff : Rat) / 16) ((h.sumPower : Rat) / 1000000)
    { h1 with theta := some (h.thetaOf r + (sample - h.thetaOf r) / 8) }

/-- θ_max over the regions in service. -/
def thetaMax (s : State) : Option Rat :=
  (List.range 144).foldl (fun (a : Option Rat) r =>
    if (s.region r).inService then
      let t := (s.unit r).thetaOf r
      match a with
      | some m => if m < t then some t else a
      | none => some t
    else a) none

/-- C (R443). -/
def capOf (s : State) (rim : Rat) : Rat :=
  let u := (s.gov.capUser.toNat % 65536) * 10
  let c1 : Rat := if u = 0 then 25000 else min 25000 (u : Rat)
  match thetaMax s with
  | none => c1
  | some t => min c1 (rim + quot (144 * (95 - (s.gov.tin : Rat) / 16 - (if s.anySplit then 5 else 0))) t)

/-- CAP_RECOMPUTE: every region's θ_r from the means since the last one, then C. -/
def execCapRecompute (s : State) : Out :=
  let s1 := (List.range 144).foldl (fun (s : State) r => s.setUnit r ((s.unit r).learn r)) s
  let rim : Rat := if s.gov.n = 0 then 0 else (s.gov.sumRim : Rat) / (s.gov.n : Rat)
  .next { s1 with gov := { s1.gov with cap := capOf s1 rim, sumRim := 0, n := 0 } }

/-! ### Wear (R448, R449) -/

/-- Terms of a unit by code of Table 13.12: 1 logic, 2 timing, 3 retention, 4 cycles, 5 sensor; the rim (144) has its eye term in
place of the last two. -/
def wearTerms (u : Nat) (h : Heat) (w : WearTerms) : List (Nat × Rat) :=
  let cyc : Rat := ((h.cyc20.toNat + 10 * h.cyc40.toNat + 100 * h.cyc60.toNat : Nat) : Rat) / 2000
  [(1, (w.logic : Rat)), (2, (w.timing : Rat)), (3, (w.retention : Rat))] ++
  (if u = 144 then [(Config.eyeTerm.toNat, (w.eye : Rat))] else [(4, cyc), (5, if h.wasSplit then 100 else 0)])

/-- Key of a unit's wear: the rim keeps its own beside the stacks. -/
def wearUnit (u : Nat) : Nat := if u = 144 then 168 else u

/-- The hourly W of a unit: the largest term, the first of equal ones. -/
def Heat.age (h : Heat) (ts : List (Nat × Rat)) : Heat :=
  let best := ts.foldl (fun (a : Nat × Rat) t => if a.2 < t.2 then t else a) (0, 0)
  { h with wear := best.2, term := best.1, hist := ((if h.hist.isEmpty then [h.wear] else h.hist)).take 720 |> (best.2 :: ·) }

/-- Days that a unit has left; none when W does not rise. -/
def Heat.days (h : Heat) : Option Rat :=
  match h.hist.getLast? with
  | none => none
  | some base =>
    let hours := h.hist.length - 1
    let rise := (h.wear - base) * 24 / (hours : Rat)
    if 0 < rise then some ((1000 - h.wear) / rise) else none

/-- WEAR_UPDATE: W of each unit measured, then LIFE_DAYS over the regions in service and the rim. -/
def execWearUpdate (ts : List (Fin 145 × WearTerms)) (s : State) : Out :=
  let s1 := ts.foldl (fun (s : State) (x : Fin 145 × WearTerms) =>
    let u := wearUnit x.1.val
    s.setUnit u ((s.unit u).age (wearTerms x.1.val (s.unit u) x.2))) s
  let us := ((List.range 144).filter fun r => (s1.region r).inService) ++ [168]
  let least := us.foldl (fun (a : Option Rat) u => match (s1.unit u).days, a with
    | some d, some m => some (min d m)
    | some d, none => some d
    | none, m => m) none
  let days := match least with
    | some d => min 0xFFFF (Config.shown d)
    | none => 0xFFFF
  let warn := s1.age.warn.toNat % 65536
  let s2 := { s1 with age := { s1.age with days := days } }
  .next (if days < warn && !(s.age.days < warn) then s2.raise pageAge 0 else s2)

end Sys2Proof.Machine
end

