-- ==== Sys2Proof/Machine/Sense.lean ====
section
/-! DEFINITION. The sense converter (R450–R455). -/
namespace Sys2Proof.Machine

def clampInt (lo hi v : Int) : Int := max lo (min hi v)

def State.raiseSns (s : State) (bit : Nat) : State := s.raise pageSns bit

/-- Channels that every scan converts: SE 0–5, 16, 17 and DIFF 0–2 (Table 13.8). -/
def alwaysSe : Word := 0x0003003F
def alwaysDiff : Word := 0x00000007

/-- Channels of a scan in order: single-ended first (R451). -/
def Sense.channels (x : Sense) : List Nat :=
  ((List.range 32).filter fun n => (x.scanSe ||| alwaysSe).getLsbD n) ++
  ((List.range 8).filter fun n => (x.scanDiff ||| alwaysDiff).getLsbD n).map (32 + ·)

/-- The converter clock period, 31.25 ns in 2^−16 ns (R452). -/
def senseGrid : Nat := 2048000

/-- Hall time of the first sample of a scan triggered now: the second edge after the trigger, and the start-up of the normal mode
(R452, R453, Table 13.11). -/
def firstSample (s : State) : Nat :=
  (s.hall.now / senseGrid + 2) * senseGrid + (if s.sense.cfg.getLsbD 2 then 0 else 128 * senseGrid)

/-- A trigger: SAMPLE_OVERRUN while a scan runs, else a scan starts, with the converter's user offsets of now (Table 14.10). -/
def trigger (s : State) : State :=
  if !s.sense.queue.isEmpty then s.raiseSns 1
  else
    let s1 := (List.range 40).foldl (fun (s : State) c => (s.takeOffset 1 c).1) s
    { s1 with sense := { s1.sense with queue := s1.sense.channels, begun := false, first := firstSample s } }

/-- SNS_CFG.edge selects this kind of edge. -/
def edgeSelected (x : Sense) (rising : Bool) : Bool := if rising then x.cfg.getLsbD 0 else x.cfg.getLsbD 1

def execSampleInEdge (rising : Bool) (s : State) : Out :=
  if edgeSelected s.sense rising then .next (trigger { s with sense := { s.sense with lastEdge := s.ns } }) else .next s

/-- A whole millisecond: it triggers with edge none, and self-triggers after 2 ms without an edge. -/
def execScanTimer (s : State) : Out :=
  if s.sense.cfg.extractLsb' 0 2 = 0 then .next (trigger { s with sense := { s.sense with lastEdge := s.ns } })
  else if s.sense.lastEdge + 2000000 ≤ s.ns then .next (trigger (s.raiseSns 2)) else .next s

/-- A write of SNS_CTRL: only from the physical function's window, only until bring-up is complete. -/
def execForce (w : WinId) (v : Word) (s : State) : Out :=
  if w.val != 0 || !pageShown s 0 pageSns || !v.getLsbD 0 then .next s
  else if s.bru.forceOff then .next (s.raiseSns 3)
  else .next (trigger { s with sense := { s.sense with lastEdge := s.ns } })

/-- A code in its register form (R454): corrected by the user offset, kept in 14 bits, aligned. -/
def resultCode (left : Bool) (chan : Nat) (code offset : Int) : BitVec 16 :=
  let v := if 32 ≤ chan then clampInt (-8192) 8191 (code + offset) else clampInt 0 16383 (code + offset)
  let c := BitVec.ofInt 16 v
  if left then c <<< 2 else c

/-- All pending shadows of the page apply; results are no longer valid (R455, R490, Table 13.15). -/
def applySense (s : State) : State :=
  let x := s.sense
  if x.shCfg.isNone && x.shSe.isNone && x.shDiff.isNone && x.shRgn.isNone then { s with sense := { x with applying := false } }
  else
    let stale := x.results.map fun kv => (kv.1, kv.2 &&& 0x7FFFFFFF)
    { s with
      sense := { x with
        cfg := x.shCfg.getD x.cfg, scanSe := x.shSe.getD x.scanSe, scanDiff := x.shDiff.getD x.scanDiff, rgnSel := x.shRgn.getD x.rgnSel
        shCfg := none, shSe := none, shDiff := none, shRgn := none, applying := false
        results := stale.filter fun kv => kv.2 != 0 }
      cfgGen := FMap.set 0 s.cfgGen pageSns (FMap.get 0 s.cfgGen pageSns + 1) }

/-- The scan is over: its count, SCAN_DONE, and an apply that has waited for it. -/
def scanDone (s : State) : State :=
  let s1 := { s with sense := { s.sense with scans := s.sense.scans + 1 } }.raiseSns 0
  if s1.sense.applying then applySense s1 else s1

/-- CONVERSION_DONE: the channel in front is converted, with its code as the factory gain and offset correct it; a reserved channel
reads zero (Table 13.8). -/
def execConversionDone (code : Int) (s : State) : Out :=
  match s.sense.queue with
  | [] => .next s
  | c :: rest =>
    let raw : Int := if 18 ≤ c && c ≤ 23 then 0 else code
    let off : Int := if 18 ≤ c && c ≤ 23 then 0 else calOffset 1 c (FMap.get 0 s.cal.inForce (65536 + c))
    let r := resultCode (s.sense.cfg.getLsbD 3) c raw off
    let no := BitVec.ofNat 8 (Config.scanBase + s.sense.scans)
    let word : Word := (1 : BitVec 1) ++ (0 : BitVec 7) ++ no ++ r
    let x := s.sense
    let s1 := { s with sense := { x with
      queue := rest
      begun := true
      stamp := if x.begun then x.stamp else BitVec.ofNat 64 (x.first / 65536)
      results := FMap.set 0 x.results c word } }
    .next (if rest.isEmpty then scanDone s1 else s1)

end Sys2Proof.Machine
end

