-- ==== Sys2Proof/Machine/Bringup.lean ====
section
/-! DEFINITION. Reset, cold bring-up, fault maps and warm restart (R460–R464, R476). -/
namespace Sys2Proof.Machine

def State.raiseBru (s : State) (bit : Nat) : State := s.raise pageBru bit

/-- MOD_READY (Table 14.11). -/
def modReady (s : State) : Bool := s.bru.done && !s.gov.shutdown
/-- MOD_ALERT_N is low (Table 14.11). -/
def modAlertLow (s : State) : Bool := s.bru.alert || s.gov.shutdown || decide (s.ns < s.bru.pulse)

/-! ### Reset (R460, R476) -/

/-- What of a unit is non-volatile: its cycle counts and wear (log entry 39). Its daily baselines start anew at each bring-up (R449). -/
def Heat.kept (h : Heat) : Heat :=
  { cyc20 := h.cyc20, cyc40 := h.cyc40, cyc60 := h.cyc60, wasSplit := h.wasSplit, wear := h.wear, term := h.term }

/-- The module in reset: flash (firmware slots and selector, user offsets and trims, fault maps, wear), the enrolment table and the
fuses are kept; the queue of commands is not the machine's. -/
def resetModule (s : State) : State :=
  let blank : Heat := {}
  let hs := s.heat.map fun (kv : Nat × Heat) => (kv.1, kv.2.kept)
  { State.reset with
    pending := s.pending
    free := s.free
    sec := { s.sec with running := false, meas := none }
    heat := hs.filter fun kv => kv.2 != blank
    cal := { flash := s.cal.flash, flashTrim := s.cal.flashTrim }
    bru := { factory := s.bru.factory, field := s.bru.field, clearField := s.bru.clearField } }

def execModuleReset (s : State) : Out := .next (resetModule s)

/-! ### Boot (R461, R465, R473) -/

/-- A slot is accepted: its signature verifies and its security version is not below the fuse count. -/
def slotAccepted (x : Security) (b : Bool) : Bool :=
  match (if b then x.slotB else x.slotA) with
  | some f => f.verifies && decide (x.fuses ≤ f.secver.toNat)
  | none => false

/-- The slot that boots: the one the selector names, or the other with BOOT_ALT high; then the remaining one. -/
def bootSlot (x : Security) (bootAlt : Bool) : Option Bool :=
  let one := x.select != bootAlt
  if slotAccepted x one then some one else if slotAccepted x (!one) then some (!one) else none

/-- VCORE trims and user offsets come from flash (R473, Table 14.10). -/
def loadFlash (s : State) : State :=
  let trims := s.cal.flashTrim.foldl (fun (s : State) kv => s.setUnit kv.1 { s.unit kv.1 with trim := some (BitVec.ofInt 8 kv.2) }) s
  { trims with cal := { trims.cal with user := s.cal.flash, inForce := s.cal.flash } }

/-- COLD_BRINGUP: boot, calibration, link ports leave electrical idle, stacks; a CLEAR_FIELD takes effect. -/
def execColdBringup (bootAlt calSigOk : Bool) (s : State) : Out :=
  let s0 := resetModule s
  match bootSlot s0.sec bootAlt with
  | none => .next { s0 with recovery := true, bru := { s0.bru with phase := 6, busy := false, alert := true } }
  | some b =>
    let s1 := { s0 with sec := { s0.sec with running := b } }
    if !calSigOk then .next ({ s1 with bru := { s1.bru with phase := 7, busy := false, alert := true }.logPhase }.raiseBru 4)
    else
      let s2 := (List.range 48).foldl (fun (s : State) n => s.setPort n { s.port n with state := 1 }) (loadFlash s1)
      .next { s2 with bru := { s2.bru with
        phase := 1, since := s2.ns, clearField := false, field := if s2.bru.clearField then [] else s2.bru.field }.logPhase }

/-! ### Rings of regions (R15, R17, R18, R462, R463) -/

def ringRegions (k : Nat) : List Nat := (List.range 144).filter fun r => ringOf r == k

/-- Every entry of both maps, factory first, and an entry's bytes. -/
def Bru.entries (b : Bru) : List FaultEntry := b.factory ++ b.field
def faultBytes (e : FaultEntry) : List Byte :=
  [BitVec.ofNat 8 e.kind, BitVec.ofNat 8 e.cause] ++ bytesLE 2 e.a ++ bytesLE 2 e.b ++ [0, 0] ++ bytesLE 8 e.time

/-- The region of a physical tile (R16). -/
def physRegion (pcol prow : Nat) : Nat := (pcol / 28) * 12 + prow / 28

/-- Mapped-out tiles of a region, as local column and physical row. -/
def mappedOut (s : State) (r : Nat) : List (Nat × Nat) :=
  (s.bru.entries.filterMap fun e =>
    if e.kind = 1 && physRegion e.a e.b = r then some (e.a % 28, e.b % 28) else none).eraseDups

/-- No column of the region has two tiles mapped out (R18). -/
def columnsOk (m : List (Nat × Nat)) : Bool := (m.map (·.1)).eraseDups.length == m.length

/-- A cause that a cold bring-up tests again, or a warm restart (R463). -/
def coldRetest (c : Nat) : Bool := c == 8 || c == 9 || c == 10 || c == 11
def warmRetest (c : Nat) : Bool := c == 9 || c == 10

/-- Records a fault that a test found; a tile in a map already, or a region with this cause, is not recorded again, and a full map keeps its
region out. -/
def foundFault (s : State) (kind cause a b : Nat) : State :=
  if s.bru.entries.any fun e => e.kind == kind && e.a == a && e.b == b && (kind == 1 || e.cause == cause) then s
  else
    let r := if kind = 1 then physRegion a b else a
    let s1 := if 8192 ≤ s.bru.field.length then { s with bru := { s.bru with kept := s.bru.kept ++ [r] } } else s
    addFault s1 kind cause a b

/-- The faults that an operand names in region r. -/
def noteFails (s : State) (r : Nat) (fs : List TestFail) : State :=
  fs.foldl (fun (s : State) f => match f with
    | .tile pc pr cause => if physRegion pc.val pr.val = r then foundFault s 1 cause.toNat pc.val pr.val else s
    | .region q cause => if q.val = r then foundFault s 2 cause.toNat r 0 else s) s

def regionFails (r : Nat) (fs : List TestFail) : Bool :=
  fs.any fun f => match f with
    | .region q _ => q.val == r
    | .tile .. => false

/-- The region's standing entries keep it out: any whose cause is not tested again. -/
def barred (s : State) (r : Nat) (retest : Nat → Bool) : Bool :=
  s.bru.entries.any fun e => e.kind == 2 && e.a == r && !retest e.cause

/-- The region enters service: its retested entries go, maps are applied, its tiles are in service. -/
def enterService (s : State) (r : Nat) (retest : Nat → Bool) : State :=
  let m := mappedOut s r
  let s1 := { s with bru := { s.bru with field := s.bru.field.filter fun e => !(e.kind == 2 && e.a == r && retest e.cause) } }
  let s2 := s1.setRegion r { s1.region r with inService := true, lostBy := 0, deadA := false, deadB := false, onB := false, mapped := m, refresh := 0 }
  let s3 := s2.setUnit r { s2.unit r with parked := false, bad := [] }
  (rectTiles (r / 12) (r % 12) 1 1 none).foldl (fun (s : State) k => match tileAt k with
    | some t => if (s.tile t).part.isNone then s.mapTile t fun T => { T with inService := true } else s
    | none => s) s3

/-- One region of a cold bring-up: without a neighbour in service in the ring before it, it stays out UNTESTED. R18
  handles a region left out as a lost one and does not say whether Table 12.11's REGION_LOST and its MOD_ALERT_N pulse
  are given for it: neither is (DESIGN CHOICE, log entry 114). -/
def testRegion (k : Nat) (fs : List TestFail) (s : State) (r : Nat) : State :=
  if k != 0 && !((adjacentRegions r).any fun q => ringOf q == k - 1 && (s.region q).inService) then foundFault s 2 11 r 0
  else if barred s r coldRetest then s
  else
    let s1 := noteFails s r fs
    if regionFails r fs || s1.bru.kept.contains r || !columnsOk (mappedOut s1 r) then s1 else enterService s1 r coldRetest

/-- The region's clock runs again: its refresh counter starts at zero (R37). -/
def restartCounter (s : State) (r : Nat) : State :=
  if (s.region r).inService then s.setRegion r { s.region r with refresh := 0 } else s

/-- A tile that fails in a warm restart takes its region out of service (R464). -/
def warmFails (fs : List TestFail) (s : State) (r : Nat) : State :=
  let hit := regionFails r fs || fs.any fun f => match f with
    | .tile pc pr _ => physRegion pc.val pr.val == r
    | .region .. => false
  if hit && (s.region r).inService then
    let s1 := noteFails s r fs
    (s1.setRegion r { s1.region r with inService := false }).raiseFlt 2
  else s

/-- RING_TEST: the next ring of a cold bring-up or of a warm restart; another ring, or none under way, changes nothing. -/
def execRingTest (ring : Fin 6) (fails : List TestFail) (s : State) : Out :=
  let b := s.bru
  if b.next != ring.val then .next s
  else if b.phase = 1 || b.phase = 2 then
    let s1 := { s with bru := { b with phase := if ring.val = 5 then 3 else 2, ring := ring.val, next := ring.val + 1 }.logPhase }
    .next ((ringRegions ring.val).foldl (testRegion ring.val fails) s1)
  else if b.phase = 5 then
    let s1 := { s with bru := { b with ring := ring.val, next := ring.val + 1 } }
    .next ((ringRegions ring.val).foldl (fun (s : State) r => warmFails fails (restartCounter s r) r) s1)
  else .next s

/-- Duration of the bring-up in ms (Table 14.12). -/
def bringupMs (s : State) : Nat := (s.ns - s.bru.since) / 1000000

/-- The firmware slot that runs. -/
def Security.slot (x : Security) : Option FwImage := if x.running then x.slotB else x.slotA

/-- The attestation measurements of a bring-up (Tables 14.1, 14.3, 14.6; log entry 121). -/
def measure (s : State) : Measured :=
  { firmware := (s.sec.slot.map fun (f : FwImage) => f.digest).getD 0
    enrolment := Config.tableDigest (s.sec.keys.filterMap fun kv => kv.2.map fun k => (kv.1, k.id, k.usage))
    maps := Config.sha384 (s.bru.entries.flatMap faultBytes) }

/-- BRINGUP_DONE: after ring 5; what ATTEST reports is measured, the fuse count rises to the running firmware's version (R466), forced scans
end (R451). -/
def execBringupDone (s : State) : Out :=
  if s.bru.phase != 3 then .next s
  else
    let ver := ((s.sec.slot.map fun (f : FwImage) => f.secver.toNat)).getD 0
    .next ({ s with
      sec := { s.sec with fuses := max s.sec.fuses (min 64 ver), meas := some (measure s) }
      bru := { s.bru with phase := 4, done := true, busy := false, forceOff := true, ms := BitVec.ofNat 32 (bringupMs s) }.logPhase }.raiseBru 0)

/-! ### BRU ops (R464, Table 14.12) -/

/-- WARM: from the physical function after a completed bring-up, with a field map that can be read; it waits for quarantines. Ignored while one
runs (R360). -/
def execWarm (q : WarmReq) (s : State) : Out :=
  if q.win.val != 0 || s.bru.phase = 5 || s.bru.warmWaits then .next s
  else if !s.bru.done then .next { s with bru := { s.bru with status := 2 } }
  else if !q.mapReadable then .next { s with bru := { s.bru with status := 3 } }
  else .next (warmCheck { s with bru := { s.bru with warmWaits := true, busy := true } })

/-- CLEAR_FIELD: the field entries go at the next cold bring-up. -/
def execClearField (w : WinId) (s : State) : Out :=
  if w.val != 0 || s.bru.busy then .next s else .next { s with bru := { s.bru with clearField := true, status := 0 } }

/-- One partition restarts by steps 4 to 6 of R406 at the end of a warm restart: a recovery that stood is finished; a region lost in it is
diverted; while a master that its repairs need does not hold, it waits as a recovery does. A halt with another cause than THERMAL stands, its
tile logic reset (log entry 40). -/
def warmPartition (s : State) (p : Nat) : State :=
  let P := s.part p
  if !P.loaded then s
  else if P.rstate = 3 && P.cause != 9 then mapTiles (clearStagers s p) p fun _ T => startState T
  else if P.recovering then purgeEnd s p
  else
    let s1 := purge s p
    match lossVerdict s p with
    | .error cause => haltSafe s1 p cause
    | .ok r => match mastersDue s1 p P.owed r with
      | [] =>
        let s2 := (resume s1 p [] r).mapPart p fun P => { P with cause := 0 }
        setRstate (if r.isSome then s2.countPart p ctrDivert 1 else s2) p 0
      | ds =>
        let s2 := setRstate (s1.mapPart p fun P => { P with cause := 0, recovering := true }) p (if r.isSome then 2 else 1)
        ds.foldl (fun s d => fetchMaster s d (some p)) s2

/-- Programs and plans of every loaded partition are written again from its image copy (Table 14.4), and in exact mode its declared
refresh_defer_max (R63). -/
def rewriteStores (s : State) (p : Nat) : State :=
  match (s.part p).image with
  | some img => mapTiles s p fun k T =>
    let T1 := storeTile img k T
    if (s.part p).exact then { T1 with deferMax := img.header.refreshDecl } else T1
  | none => s

/-- A region parked for heat or sensors is tested again after a warm restart; it never joins a loaded partition (R464). -/
def warmRetestRegion (fs : List TestFail) (s : State) (r : Nat) : State :=
  let due := s.bru.field.any fun e => e.kind == 2 && e.a == r && warmRetest e.cause
  if !due || barred s r warmRetest then s
  else
    let s1 := noteFails s r fs
    if regionFails r fs || s1.bru.kept.contains r || !columnsOk (mappedOut s1 r) then s1 else enterService s1 r warmRetest

/-- WARM_DONE: after ring 5; partitions restart, a shutdown ends, parked regions that pass return. -/
def execWarmDone (fails : List TestFail) (s : State) : Out :=
  if s.bru.phase != 5 || s.bru.next != 6 then .next s
  else
    -- the resident shards are hashed against their masters before the partitions restart (Table 14.4)
    let s1 := (List.range 16).foldl (fun s p => warmPartition (visitAll (rewriteStores s p) p) p) { s with gov := { s.gov with shutdown := false } }
    let s2 := (List.range 144).foldl (warmRetestRegion fails) s1
    .next ({ s2 with bru := { s2.bru with phase := 4, done := true, busy := false, status := 0,
                                          ms := BitVec.ofNat 32 (bringupMs s) } }.raiseBru 1)

end Sys2Proof.Machine
end

