-- ==== Sys2Proof/Machine/Security.lean ====
section
/-! DEFINITION. The SEC commands: enrolment, attestation, firmware, certificates (R465–R469, R477). -/
namespace Sys2Proof.Machine

def State.secOf (s : State) (w : Nat) : SecWin := FMap.get {} s.secWin w
def State.setSecWin (s : State) (w : Nat) (x : SecWin) : State := { s with secWin := FMap.set {} s.secWin w x }

/-- A SEC command of a window ends: its status, and CMD_DONE or CMD_FAIL there (R478). -/
def endSec (s : State) (w : Nat) (status : Byte) : State :=
  (s.setSecWin w { s.secOf w with busy := false, status := status }).raiseIn w pageSec (if status = 0 then 0 else 1)

def Security.owned (x : Security) : Bool := (FMap.get none x.keys 0).isSome

/-! ### The command's fields (Table 14.5) -/

def enrolUsage (c : EnrolCmd) : Byte := c.bytes.getD 1 0
def enrolIndex (c : EnrolCmd) : Nat := (c.bytes.getD 2 0).toNat
def enrolCounter (c : EnrolCmd) : DWord := BitVec.ofNat 64 (fieldAt c.bytes 4 8)
def enrolSerial (c : EnrolCmd) : DWord := BitVec.ofNat 64 (fieldAt c.bytes 12 8)
/-- key_id: the key to revoke. -/
def enrolKeyId (c : EnrolCmd) : BitVec 128 := BitVec.ofNat 128 (fieldAt c.bytes 20 16)
/-- Identifier of a public key: the first 16 bytes of the SHA-384 digest of the 97-byte point (R468). -/
def keyIdOf (point : List Byte) : BitVec 128 := (Config.sha384 point).extractLsb' 0 128
def enrolNewKey (c : EnrolCmd) : BitVec 128 := keyIdOf (bytesAt c.bytes 36 97)

/-- The fields are what the table lets a command of this op hold: its op, reserved bytes and bits zero, the fields of other ops zero, this
module's serial. -/
def enrolFieldsOk (op : Byte) (c : EnrolCmd) : Bool :=
  c.bytes.getD 0 0 == op && zeroAt c.bytes 3 1 && zeroAt c.bytes 133 27 && enrolUsage c &&& 0xFC == 0 &&
  (op == 2 || zeroAt c.bytes 20 16) && (op == 1 || zeroAt c.bytes 36 97) && enrolSerial c == Config.serial

/-- Status of a command before its op acts: its fields, the owner's signature, the counter (Table 14.5, R468; log entry 41). -/
def enrolStatus (s : State) (op : Byte) (c : EnrolCmd) : Byte :=
  if !enrolFieldsOk op c then 1
  else if !s.sec.owned then 5
  else if !c.ownerSigOk then 2
  else if (enrolCounter c).toNat ≤ s.sec.counter.toNat then 3
  else 0

/-- The first owner key: unsigned, index and counter zero (R468). -/
def enrolOwner (s : State) (w : Nat) (c : EnrolCmd) : State :=
  if enrolFieldsOk 1 c && enrolCounter c == 0 && zeroAt c.bytes 160 96 then
    endSec { s with sec := { s.sec with keys := FMap.set none s.sec.keys 0 (some { id := enrolNewKey c, usage := enrolUsage c }) } } w 0
  else endSec s w 1

/-- ENROL: the owner key once while unowned; then entries 1 to 31. -/
def enrolKey (s : State) (w : Nat) (c : EnrolCmd) : State :=
  if !s.sec.owned && enrolIndex c = 0 then enrolOwner s w c
  else
    let st := enrolStatus s 1 c
    let i := enrolIndex c
    if st != 0 then endSec s w st
    else if i = 0 || 32 ≤ i then endSec s w 1
    else if (FMap.get none s.sec.keys i).isSome || s.sec.revoked.contains (enrolNewKey c) then endSec s w 4
    else endSec { s with sec := { s.sec with
      keys := FMap.set none s.sec.keys i (some { id := enrolNewKey c, usage := enrolUsage c }), counter := enrolCounter c } } w 0

/-- REVOKE: the key identifier is refused for new loads until RELEASE. -/
def revokeKey (s : State) (w : Nat) (c : EnrolCmd) : State :=
  let st := enrolStatus s 2 c
  let k := enrolKeyId c
  if st != 0 then endSec s w st
  else
    let rs := if s.sec.revoked.contains k then s.sec.revoked else s.sec.revoked ++ [k]
    endSec { s with sec := { s.sec with revoked := rs, counter := enrolCounter c } } w 0

/-- RELEASE: every partition is killed, one that is loading its image too, and goes into quarantine, the table and the counter are cleared. -/
def releaseModule (s : State) (w : Nat) (c : EnrolCmd) : State :=
  let st := enrolStatus s 3 c
  if st != 0 then endSec s w st
  else
    -- a load that waits for a quarantine is killed with its partition: its image is not written (log entry 122)
    let s0 := (s.rnd.map (·.1)).foldl (fun (s : State) w => if (s.rn w).image.any (·.quarantined) then s.endRnd w 0x0A else s) s
    let ps := (List.range 16).filter fun p => (s0.part p).image.isSome && !(s0.part p).quarantine
    let s1 := ps.foldl beginQuarantine s0
    endSec { s1 with sec := { s1.sec with keys := [], revoked := [], counter := 0 } } w 0

/-- A command that only the physical function may give, outside recovery mode. -/
def pfSec (w : WinId) (s : State) (run : State → State) : Out :=
  .next (if !pageShown s w.val pageSec then s else if w.val != 0 || s.recovery then endSec s w.val 5 else run s)

def execEnrol (w : WinId) (c : EnrolCmd) (s : State) : Out := pfSec w s fun s => enrolKey s w.val c
def execRevoke (w : WinId) (c : EnrolCmd) (s : State) : Out := pfSec w s fun s => revokeKey s w.val c
def execRelease (w : WinId) (c : EnrolCmd) (s : State) : Out := pfSec w s fun s => releaseModule s w.val c

/-! ### ATTEST (R469, Table 14.6) -/

def digestBytes (d : BitVec 384) : List Byte := bytesLE 48 d.toNat

/-- Manifest digests of the current generation and of another pinned one; zero for none. -/
def genDigests (s : State) (p : Nat) : Nat × BitVec 384 × BitVec 384 :=
  let P := s.part p
  let gs := [P.copy0, P.copy1].filterMap id
  let cur := gs.find? fun g => g.current
  let other := gs.find? fun g => !g.current && pinsOf s p g.no != 0
  ((cur.map (·.no)).getD 0, (cur.map fun g => g.man.digest).getD 0, (other.map fun g => g.man.digest).getD 0)

/-- Manifest digests of the resident adapter generations, in slot order. -/
def adapterDigests (P : Partition) : List Byte :=
  P.slots.flatMap fun kv => [kv.2.copy0, kv.2.copy1].flatMap fun g => match g with
    | some x => if x.switched then digestBytes x.man.digest else []
    | none => []

def attestEntry (s : State) (p : Nat) : List Byte :=
  let P := s.part p
  let g := genDigests s p
  [BitVec.ofNat 8 p, BitVec.ofNat 8 P.role, (if P.exact then 1 else 0), (if P.arith3100 then 1 else 0)] ++ bytesLE 4 g.1 ++
  digestBytes ((P.image.map fun (img : ImageData) => img.digest).getD 0) ++ digestBytes g.2.1 ++ digestBytes g.2.2 ++
  digestBytes (Config.sha384 (adapterDigests P)) ++ List.replicate 8 0

/-- Partitions that a window's report covers. -/
def attested (s : State) (w : Nat) : List Nat :=
  (List.range 16).filter fun p => (s.part p).loaded && (w == 0 || (s.vif w).partMask.getLsbD p)

/-- The 128-byte block of R248 for bytes that the identity key signs: its identifier, r, s and zero. -/
def signatureBlock (bs : List Byte) : List Byte :=
  let d := Config.sha384 bs
  bytesLE 16 Config.identityKey.toNat ++ digestBytes (Config.signR d) ++ digestBytes (Config.signS d) ++ List.replicate 16 0

/-- The report of a window, with the measurements of the last bring-up (Table 14.6). -/
def attestReport (s : State) (w : Nat) (m : Measured) : List Byte :=
  let ps := attested s w
  let body :=
    bytesLE 4 0x4C574154 ++ bytesLE 2 1 ++ [BitVec.ofNat 8 ps.length, 0] ++ bytesLE 8 Config.serial.toNat ++
    (List.range 8).flatMap (fun n => bytesLE 4 (FMap.get 0 (s.secOf w).nonce n).toNat) ++ bytesLE 8 s.ns ++
    digestBytes m.firmware ++ bytesLE 4 s.sec.fuses ++ digestBytes m.enrolment ++ digestBytes m.maps ++ List.replicate 52 0 ++
    ps.flatMap (attestEntry s)
  body ++ signatureBlock body

/-- Writes bytes to host memory at SEC_CMD_ADDR and ends the command. -/
def secOutput (s : State) (w : Nat) (bs : List Byte) : State :=
  endSec { s with host := s.host.post (s.secOf w).addr.toNat bs } w 0

def execAttest (w : WinId) (s : State) : Out :=
  .next (if !pageShown s w.val pageSec then s
    else if s.recovery then endSec s w.val 5
    else match s.sec.meas with
      | none => endSec s w.val 5
      | some m => secOutput s w.val (attestReport s w.val m))

def execCertRead (w : WinId) (s : State) : Out :=
  .next (if !pageShown s w.val pageSec then s else if s.recovery then endSec s w.val 5 else secOutput s w.val Config.certificates)

/-! ### FW_WRITE (R466) -/

/-- The slot that FW_WRITE fills: the one not running; in recovery mode, the one the selector does not name (log entry 42). -/
def idleSlot (s : State) : Bool := if s.recovery then !s.sec.select else !s.sec.running

def execFwWrite (w : WinId) (fw : FwImage) (s : State) : Out :=
  .next (if !pageShown s w.val pageSec then s
    else if w.val != 0 then endSec s w.val 5
    else if fw.verifies && decide (s.sec.fuses ≤ fw.secver.toNat) then
      let b := idleSlot s
      let x := s.sec
      let x1 := if b then { x with slotB := some fw, select := b } else { x with slotA := some fw, select := b }
      endSec { s with sec := x1 } w.val 0
    else endSec s w.val 6)

end Sys2Proof.Machine
end

