-- ==== Sys2Proof/Machine/RegRead.lean ====
section
/-! DEFINITION. What every register of the window reads as: pages, header and page bodies (R479–R483 and the register tables). -/
namespace Sys2Proof.Machine

/-! ### Layouts -/

/-- A word from (lowest bit, width, value) fields; bits named by none are zero. -/
def pack (fs : List (Nat × Nat × Nat)) : Word :=
  BitVec.ofNat 32 (fs.foldl (fun (a : Nat) f => a + f.2.2 % 2 ^ f.2.1 * 2 ^ f.1) 0)

def bit (b : Bool) : Nat := if b then 1 else 0
def lowWord (d : DWord) : Word := d.extractLsb' 0 32
def highWord (d : DWord) : Word := d.extractLsb' 32 32
/-- The half of a 64-bit register at `base` that offset `off` names. -/
def half (d : DWord) (base off : Nat) : Word := if off = base then lowWord d else highWord d
def ofInt16 (v : Option Int) : Nat := match v with
  | some x => (BitVec.ofInt 16 x).toNat
  | none => 0x8000

/-! ### Pages (Table 15.1) -/

/-- Family code and instance of a page. -/
def familyOf (page : Nat) : Nat × Nat :=
  if page < 0xD then (page + 1, 0)
  else if pageRow ≤ page && page < pageRow + 265 then (0x0E, page - pageRow)
  else if pagePrt ≤ page && page < pagePrt + 16 then (0x10, page - pagePrt)
  else if pageLnk ≤ page && page < pageLnk + 48 then (0x11, page - pageLnk)
  else if pageStk ≤ page && page < pageStk + 24 then (0x12, page - pageStk)
  else if pageVif ≤ page && page < pageVif + 128 then (0x13, page - pageVif)
  else if pageRgn ≤ page && page < pageRgn + 144 then (0x14, page - pageRgn)
  else (0, 0)

/-- One more than the highest defined event of a family (the event tables of the chapters). -/
def evtBits (family : Nat) : Nat :=
  match family with
  | 0x01 => 5 | 0x02 => 2 | 0x03 => 2 | 0x04 => 5 | 0x05 => 9 | 0x06 => 4 | 0x07 => 1 | 0x08 => 7 | 0x0A => 10 | 0x0B => 7
  | 0x0C => 8 | 0x10 => 11 | 0x11 => 6 | 0x13 => 1 | _ => 0

def hasRws (w family : Nat) : Bool := family == 0x06 || family == 0x0C || family == 0x10 || (family == 0x0A && w == 0)
def hasRwq (w family : Nat) : Bool :=
  family == 0x04 || family == 0x0C || family == 0x0E || family == 0x10 || family == 0x11 || family == 0x13 || family == 0x14 ||
  (family == 0x0A && w == 0)
def hasCtr (family : Nat) : Bool :=
  family == 0x03 || family == 0x08 || family == 0x10 || family == 0x11 || family == 0x12 || family == 0x13 || family == 0x14

/-- A page that a virtual function's window shows read-only outside the header (Table 15.1). -/
def pageRo (w page : Nat) : Bool :=
  w != 0 && (let f := (familyOf page).1
    f == 0x04 || f == 0x05 || f == 0x06 || f == 0x07 || f == 0x10 || f == 0x11 || f == 0x12 || f == 0x13 || f == 0x14)

/-! ### Quiescence (Table 15.4) -/

/-- Rows of a partition in ACCEPTED to DRAINING or IMPORTED. -/
def partRows (s : State) (p : Nat) : Nat := ((s.rowsOf p).filter fun kv => kv.2.active).length

def partQuiesced (s : State) (p : Nat) : Bool :=
  let P := s.part p
  P.image.isNone || P.quarantine || (partRows s p == 0 && P.inflight.isEmpty && P.rstate == 0)
def vifQuiesced (s : State) (v : Nat) : Bool := s.rows.all fun kv => kv.2.owner != v || kv.2.state == 0
def hallQuiesced (s : State) : Bool := s.parts.all fun kv => !kv.2.loaded
def regionQuiesced (s : State) (r : Nat) : Bool := s.parts.all fun kv => !(kv.2.loaded && kv.2.regions.contains r)

/-- Every block of a page's RWQ fields is quiesced (Table 15.3). -/
def pageQuiesced (s : State) (w page : Nat) : Bool :=
  let (f, n) := familyOf page
  match f with
  | 0x04 => hallQuiesced s
  | 0x0A => w == 0 && !s.house.log.enable
  | 0x0C => (List.range 32).all fun k => !(s.ring w k).enable
  | 0x0E => (List.range 31).all fun i => !(reaches s w (31 * n + i)) || (s.row (31 * n + i)).state == 1
  | 0x10 => partQuiesced s n
  | 0x11 => (s.port n).owners.all fun o => match o.2 with
      | some p => !(s.part p).loaded
      | none => true
  | 0x13 => vifQuiesced s n
  | 0x14 => regionQuiesced s n
  | _ => false

/-- A shadow of the page is pending (R490). -/
def pagePend (s : State) (w page : Nat) : Bool :=
  let (f, n) := familyOf page
  match f with
  | 0x06 => s.sense.shCfg.isSome || s.sense.shSe.isSome || s.sense.shDiff.isSome || s.sense.shRgn.isSome
  | 0x0A => w == 0 && s.house.log.shadow.isSome
  | 0x0C => (List.range 32).any fun k => (s.ring w k).shadow.isSome
  | 0x10 => (s.part n).specShadow.isSome
  | _ => false

/-! ### The header (Tables 15.2 and 15.3) -/

def readHeader (s : State) (w page off : Nat) : Word :=
  let x := s.header w page
  let (f, n) := familyOf page
  match off with
  | 0x00 => pack [(24, 8, f), (16, 8, 1), (0, 16, n)]
  | 0x04 => pack [(8, 8, evtBits f), (3, 1, bit (hasRws w f)), (2, 1, bit (hasRwq w f)), (1, 1, bit (hasCtr f)), (0, 1, 1)]
  | 0x0C => pack [(31, 1, bit (pagePend s w page)), (30, 1, bit (hasRwq w f && pageQuiesced s w page)), (29, 1, bit x.cfgReject),
                  (28, 1, bit x.badWrite)]
  | 0x10 => x.evtStat
  | 0x14 => x.evtEn
  | 0x1C => pack [(31, 1, bit x.routeEn), (8, 1, bit x.routeHdr), (0, 6, x.vector.toNat)]
  | 0x20 => pack [(31, 1, bit x.errValid), (28, 3, x.errCause.toNat), (0, 12, x.errOffset.toNat)]
  | 0x24 => x.errCount
  | 0x28 => FMap.get 0 s.cfgGen page
  | _ => 0

/-! ### Bodies -/

def readBru (s : State) (off : Nat) : Option Word :=
  let b := s.bru
  let m := if b.sel.getLsbD 15 then b.field else b.factory
  let e := (m[(b.sel.extractLsb' 0 13).toNat]?).map faultBytes
  match off with
  | 0x40 => some (pack [(31, 1, bit b.done), (30, 1, bit b.busy), (20, 4, b.phase), (16, 4, b.ring),
      (8, 8, (s.regions.filter fun kv => kv.2.inService).length), (0, 8, b.status)])
  | 0x44 => some 0
  | 0x48 => some b.sel
  | 0x50 | 0x54 | 0x58 | 0x5C => some (BitVec.ofNat 32 (natLE (((e.getD []).drop (off - 0x50)).take 4)))
  | 0x60 => some (pack [(16, 16, b.field.length), (0, 16, b.factory.length)])
  | 0x64 => some b.ms
  | _ => none

def readSec (s : State) (w off : Nat) : Option Word :=
  let x := s.sec
  let y := s.secOf w
  let ver := ((if x.running then x.slotB else x.slotA).map fun (f : FwImage) => f.secver.toNat).getD 0
  if off = 0x40 then some (pack [(31, 1, bit x.owned), (30, 1, bit x.running), (16, 8, ver), (8, 8, x.fuses)])
  else if off = 0x44 then some (pack [(31, 1, bit y.busy), (16, 8, y.status.toNat)])
  else if off = 0x48 || off = 0x4C then some (half y.addr 0x48 off)
  else if off = 0x50 then (if w = 0 then some y.len else none)
  else if off = 0x58 || off = 0x5C then some (half Config.serial 0x58 off)
  else if 0x60 ≤ off && off < 0x80 then some (FMap.get 0 y.nonce ((off - 0x60) / 4))
  else if (off = 0x80 || off = 0x84) && w = 0 then some (half x.counter 0x80 off)
  else none

def readPci (s : State) (off : Nat) : Option Word :=
  let vfs := (s.vifs.filter fun kv => kv.1 != 0 && kv.2.enabled).length
  match off with
  | 0x40 => some (pack [(16, 7, vfs), (12, 4, s.host.width), (8, 4, s.host.speed), (7, 1, bit s.host.flit), (6, 1, bit s.host.up)])
  | 0x44 => some s.host.retrains
  | 0x48 => some s.host.rewrites
  | _ => none

def readHal (s : State) (off : Nat) : Option Word :=
  let H := s.hall
  match off with
  | 0x40 | 0x44 => some (half (BitVec.ofNat 64 s.ns) 0x40 off)
  | 0x48 => some (BitVec.ofNat 32 (H.now % 65536))
  | 0x4C => some (pack [(16, 8, H.depth), (8, 6, H.upstream), (4, 1, bit H.refOn), (3, 1, bit H.timetable), (0, 3, H.state)])
  | 0x50 => some (pack [(31, 1, bit H.root), (0, 8, H.holdover)])
  | 0x54 => some (H.addr.setWidth 32)
  | 0x58 | 0x5C => some (half H.epochNext 0x58 off)
  | 0x60 | 0x64 => some (half (BitVec.ofNat 64 (s.ns / 65536)) 0x60 off)
  | 0x68 => some H.offset
  | _ => none

/-- [31:16] and [15:0] of two readings. -/
def temps (hi lo : Option Int) : Word := pack [(16, 16, ofInt16 hi), (0, 16, ofInt16 lo)]

def readThm (s : State) (off : Nat) : Option Word :=
  let g := s.gov
  match off with
  | 0x40 => some (pack [(24, 8, g.hottest.getD 0xFF), (20, 4, g.level), (19, 1, bit g.busA), (18, 1, bit g.busB), (17, 1, bit g.coolantLow),
      (16, 1, bit s.anySplit)])
  | 0x44 => some (g.capUser &&& 0xFFFF)
  | 0x48 => some (BitVec.ofNat 32 g.p1ms)
  | 0x4C => some (BitVec.ofNat 32 g.p1s)
  | 0x50 => some (BitVec.ofNat 32 (Config.shown g.cap))
  | 0x54 => some (BitVec.ofNat 32 (Config.shown s.limit))
  | 0x58 => some (BitVec.ofNat 32 g.duty)
  | 0x5C => some (BitVec.ofNat 32 (Config.shown (((thetaMax s).getD 0) * 10000)))
  | 0x60 => some (BitVec.ofInt 32 g.tin)
  | 0x64 => some (pack [(16, 16, g.flowB.toNat), (0, 16, g.flowA.toNat)])
  | _ => none

def readSns (s : State) (off : Nat) : Option Word :=
  let x := s.sense
  if off = 0x40 then some (x.shCfg.getD x.cfg)
  else if off = 0x44 then some 0
  else if off = 0x48 then some (x.shSe.getD x.scanSe ||| alwaysSe)
  else if off = 0x4C then some (x.shDiff.getD x.scanDiff ||| alwaysDiff)
  else if off = 0x50 then some (x.shRgn.getD x.rgnSel)
  else if off = 0x54 then
    let run := !x.queue.isEmpty
    let up := run && decide (s.hall.now < x.first) && !x.cfg.getLsbD 2
    some (pack [(16, 16, x.scans), (2, 1, bit (run || x.cfg.getLsbD 2)), (1, 1, bit up), (0, 1, bit (run && !up))])
  else if off = 0x58 || off = 0x5C then some (half x.stamp 0x58 off)
  else if 0x80 ≤ off && off < 0x120 then some (FMap.get 0 x.results ((off - 0x80) / 4))
  else none

def wearWord (h : Heat) : Word := pack [(12, 4, h.term), (0, 10, Config.shown h.wear)]

def readAge (s : State) (off : Nat) : Option Word :=
  match off with
  | 0x40 => some (BitVec.ofNat 32 s.age.days)
  | 0x44 => some (s.age.warn &&& 0xFFFF)
  | 0x48 => some (wearWord (s.unit 168))
  | _ => none

/-- Table 12.3. -/
def FltRec.bytes (x : FltRec) : List Byte :=
  bytesLE 8 x.time ++ [x.cls, (match x.part with
    | some p => BitVec.ofNat 8 p
    | none => 0x80)] ++ bytesLE 2 (x.region.getD 0xFFFF) ++ bytesLE 4 x.tile.toNat ++
  [x.detail, BitVec.ofNat 8 x.state, BitVec.ofNat 8 x.outcome, 0] ++ bytesLE 8 x.step ++ bytesLE 4 x.loc.toNat

/-- The record of a queue or history slot at a page offset (R496): its 8 words, zero while the slot is empty. -/
def fltSlot (s : State) (off : Nat) : List Word :=
  let r := if off < 0x800 then s.fltQ.find? fun x => x.slot == (off - 0x200) / 32 else FMap.get none s.fltHist ((off - 0x800) / 32)
  match r with
  | some x => (List.range 8).map fun i => BitVec.ofNat 32 (natLE ((x.bytes.drop (4 * i)).take 4))
  | none => List.replicate 8 0

def fltOffset (off : Nat) : Bool := (0x200 ≤ off && off < 0x400) || (0x800 ≤ off && off < 0x1000)

def readFlt (s : State) (w off : Nat) : Option Word :=
  if off = 0x40 then some (pack [(24, 8, s.fltQ.length), (16, 8, (s.parts.filter fun kv => kv.2.recovering).length)])
  else if off = 0x44 then some s.fltDone
  else if off = 0x48 then some s.fltLost
  else if fltOffset off then
    let base := off / 32 * 32
    let i := off % 32 / 4
    let c := FMap.get [] s.capFlt (2 ^ 28 * w + base)
    some (((if i = 0 then none else c.getD i none)).getD ((fltSlot s base).getD i 0))
  else none

/-- The user range of a calibration item; none without one (Table 15.15). -/
def calRange (kind index : Nat) : Option Int :=
  if kind = 1 && index < 40 then some 256
  else if (kind = 2 || kind = 3) && index < 288 then some 64
  else if kind = 4 && index < 24 then some 64
  else if kind = 5 && index < 144 then some 100
  else if kind = 6 && index < 1152 then some 4
  else if kind = 7 && index < 48 then some 6553
  else none

def calKind (s : State) : Nat := (s.cal.sel.extractLsb' 24 8).toNat
def calIndex (s : State) : Nat := (s.cal.sel.extractLsb' 0 16).toNat

def readCal (s : State) (off : Nat) : Option Word :=
  let kind := calKind s
  let i := calIndex s
  let known := (calRange kind i).isSome
  let k := 65536 * kind + i
  let used : Int := if kind = 6 then (FMap.get 0 (s.port (i / 24)).taps (i % 24)).toInt else FMap.get 0 s.cal.inForce k
  match off with
  | 0x40 => some (s.cal.sel &&& 0xFF00FFFF)
  | 0x44 => some (if known then BitVec.ofInt 32 (FMap.get 0 s.cal.user k) else 0)
  | 0x48 => some (if known then BitVec.ofInt 32 (Config.factoryCal kind i) else 0)
  | 0x4C => some (if known then BitVec.ofInt 32 (calEffective kind i used) else 0)
  | 0x50 => some (pack [(31, 1, bit s.cal.busy), (16, 8, s.cal.status.toNat)])
  | 0x54 => some (pack [(31, 1, bit s.cal.unsaved), (0, 16, s.cal.user.length)])
  | _ => none

def readRnd (s : State) (w off : Nat) : Option Word :=
  let R := s.rn w
  match off with
  | 0x40 => some (pack [(31, 1, bit R.busy), (16, 8, R.status.toNat)])
  | 0x44 => some R.part
  | 0x48 => some R.flags
  | 0x50 | 0x54 => some (half R.addr 0x50 off)
  | 0x58 => some R.len
  | 0x60 | 0x64 => some (half R.table 0x60 off)
  | 0x68 | 0x6C => some (half R.switchAt 0x68 off)
  | 0x70 => some R.total
  | 0x74 => some R.done
  | 0x78 => some R.result
  | 0x80 => if w = 0 then some (BitVec.ofNat 32 s.house.interval) else none
  | 0x88 | 0x8C => if w = 0 then some (half s.house.log.base 0x88 off) else none
  | 0x90 => if w = 0 then some (pack [(31, 1, bit s.house.log.enable), (26, 5, s.house.log.log2size)]) else none
  | 0x94 => if w = 0 then some s.house.log.produced else none
  | 0x98 => if w = 0 then some (s.house.log.shadow.getD s.house.log.consumed) else none
  | _ => none

def readKvp (s : State) (w off : Nat) : Option Word :=
  let K := s.kv w
  match off with
  | 0x40 => some (pack [(31, 1, bit K.busy), (16, 8, K.status.toNat)])
  | 0x44 => some K.part
  | 0x48 => some K.handle
  | 0x4C => some K.row
  | 0x50 => some K.len
  | 0x58 | 0x5C => some (half K.dest 0x58 off)
  | 0x60 => some K.result
  | 0x64 => some (BitVec.ofNat 32 (s.handles.filter fun kv => kv.2.live && kv.2.owner == w).length)
  | _ => none

def readSig (s : State) (w off : Nat) : Option Word :=
  if 0x100 ≤ off && off < 0x500 then
    let g := s.ring w ((off - 0x100) / 32)
    match (off - 0x100) % 32 with
    | 0x00 => some (lowWord g.base)
    | 0x04 => some (highWord g.base)
    | 0x08 => some (pack [(31, 1, bit g.enable), (26, 5, g.log2size), (20, 6, g.vector), (12, 8, g.batch), (0, 12, g.holdoff)])
    | 0x0C => some (g.shadow.getD g.consumed)
    | 0x10 => some g.produced
    | _ => some 0
  else none

def State.twnOf (s : State) (w : Nat) : TwnWin := FMap.get {} s.twn w
def State.setTwn (s : State) (w : Nat) (x : TwnWin) : State := { s with twn := FMap.set {} s.twn w x }

def readTwn (s : State) (w off : Nat) : Option Word :=
  let x := s.twnOf w
  if off = 0x40 then some x.sel
  else if off = 0x44 then some x.addr
  else if off = 0x48 then some (pack [(31, 1, bit x.busy), (16, 8, x.status.toNat)])
  else if off = 0x4C then some x.len
  else if off = 0x50 then some x.dataIn
  else if 0x100 ≤ off && off < 0x200 then some (BitVec.ofNat 32 (natLE ((x.data.drop (off - 0x100)).take 4)))
  else none

/-- KV_FREE and KV_SLOTS (Table 9.12). -/
def kvHomes (P : Partition) : List Nat := (P.feet.flatMap (fun f => f.plat.map (·.toNat)) ++ P.storeTiles).eraseDups
def kvFree (s : State) (p : Nat) : Nat :=
  let P := s.part p
  (kvHomes P).foldl (fun (a : Nat) h => a + (P.units h - ((usedUnits s p h).foldl (fun (b : Nat) u => b + u.2) 0))) 0
def kvSlots (s : State) (p : Nat) : Nat :=
  let P := s.part p
  let held := (P.withheld.filter fun w => w.what == 1).length
  let aside := P.feet.foldl (fun (a : Nat) (f : Foot) => a + slotsAside s p f.layer) 0
  (kvHomes P).length * P.layout.1 - held - aside

/-- State of the copy that is not current (Table 10.14): one that still takes the lines of a load that was given up is not free yet, and
reads as loading (R344). -/
def otherCopy (s : State) (p : Nat) : Nat :=
  let P := s.part p
  let others := [P.copy0, P.copy1].filterMap fun g => match g with
    | some x => if x.current then none else some x
    | none => none
  let cur := (P.currentGen.map (·.1))
  match others.head? with
  | none => if [false, true].any fun c => cur != some c && stillWritten s p none c then 1 else 0
  | some g => if g.switched then 3 else if g.ready then 2 else 1

def readPrt (s : State) (p off : Nat) : Option Word :=
  let P := s.part p
  let cur := P.currentGen
  let other := [P.copy0, P.copy1].filterMap id |>.find? fun g => !g.current
  if off = 0x40 then some (pack [(30, 2, P.role), (29, 1, bit P.exact), (28, 1, bit (P.bstate == 2)), (20, 4, P.gx0), (16, 4, P.gy0),
      (12, 4, P.width), (8, 4, P.height)])
  else if off = 0x44 then some (pack [(0, 1, bit P.arith3100)])
  else if off = 0x48 || off = 0x4C then some (half P.seed 0x48 off)
  else if off = 0x50 then some (pack [(16, 16, P.horizon), (4, 1, bit P.hsFault), (3, 1, bit P.hsGovernor), (2, 1, bit P.hsHoldreq),
      (1, 1, bit P.hsLadder), (0, 1, bit P.hsSlip)])
  else if off = 0x58 || off = 0x5C then some (half P.holdClk 0x58 off)
  else if off = 0x60 then some (pack [(24, 8, P.refusal), (16, 8, P.section_), (2, 2, P.bstate), (1, 1, bit P.exact), (0, 1, bit P.divAll)])
  else if off = 0x68 || off = 0x6C then
    some (half (((P.image.map fun (i : ImageData) => i.digest).getD 0).extractLsb' 0 64) 0x68 off)
  else if off = 0x70 then some P.serve
  else if off = 0x74 then some (P.specShadow.getD P.spec)
  else if off = 0x78 then some (pack [(24, 8, P.layout.1), (4, 4, P.kvWindow), (1, 1, bit P.layout.2.1), (0, 1, bit P.kvFmt)])
  else if off = 0x7C then some (BitVec.ofNat 32 ((cur.map fun g => g.2.no).getD 0))
  else if off = 0x80 then some (pack [(18, 14, (other.map fun g => pinsOf s p g.no).getD 0), (3, 1, bit ((cur.map (·.1)).getD false)),
      (2, 1, bit P.policy), (0, 2, otherCopy s p)])
  else if off = 0x84 then some (pack [(28, 4, P.rstate), (16, 8, P.cause), (8, 8, P.lost.getD 0xFF)])
  else if off = 0x88 then some (BitVec.ofNat 32 (kvFree s p))
  else if off = 0x8C then some (BitVec.ofNat 32 (kvSlots s p))
  else if 0x100 ≤ off && off < 0x188 && off != 0x16C then
    let base := if wideCtr (off / 8 * 8) then off / 8 * 8 else off
    some (half (P.counter base) base off)
  else none

def readLnk (s : State) (n off : Nat) : Option Word :=
  let L := s.port n
  let slot := (L.slotSel.extractLsb' 0 10).toNat
  let e : SlotEntry := FMap.get {} (if L.slotSel.getLsbD 11 then L.tableB else L.tableA) slot
  let own := FMap.get none L.owners slot
  match off with
  | 0x40 => some (pack [(16, 8, L.lanes.toNat), (5, 1, bit (L.swapFrame != 0)), (4, 1, bit L.active), (0, 3, L.state)])
  | 0x44 => some (pack [(31, 1, bit L.enable)])
  | 0x48 => some L.slotSel
  | 0x4C => some (pack [(30, 2, if slot % 32 = 0 then 3 else e.kind.toNat), (29, 1, bit own.isSome), (25, 4, own.getD 0), (16, 6, e.rxPort.toNat),
      (0, 10, e.rxSlot.toNat)])
  | 0x50 | 0x54 => some (half L.swapFrame 0x50 off)
  | 0x58 => some L.delay
  | 0x5C => some L.peer
  | 0x60 | 0x64 | 0x68 | 0x6C | 0x70 | 0x74 | 0x78 => some (FMap.get 0 L.ctr off)
  | 0x80 | 0x84 => some (half L.txCells 0x80 off)
  | 0x88 | 0x8C => some (half L.rxCells 0x88 off)
  | _ => none

/-- Stack pages: the spec names their registers and gives no offsets; they take those of the RGN page's like registers (R457; log entry
43). -/
def readStk (s : State) (k off : Nat) : Option Word :=
  let h := s.unit (stackUnit k)
  match off with
  | 0x40 => some (pack [(0, 4, if s.gov.carrier = some (stackUnit k) then s.gov.level else 0)])
  | 0x44 => some (pack [(0, 16, ofInt16 h.a)])
  | 0x60 => some h.cyc20
  | 0x64 => some h.cyc40
  | 0x68 => some h.cyc60
  | _ => none

def readVif (s : State) (n off : Nat) : Option Word :=
  let v := s.vif n
  let mine := s.rows.filter fun kv => kv.2.owner == n && kv.2.state != 0
  match off with
  | 0x40 => some (pack [(16, 14, v.rowCount), (0, 13, v.rowBase)])
  | 0x44 => some (pack [(0, 14, v.rowQuota)])
  | 0x48 => some (v.partMask.setWidth 32)
  | 0x4C => some (pack [(31, 1, bit (n == 0 || v.enabled)), (30, 1, bit v.d3hot), (29, 1, bit v.busMaster),
      (14, 14, (mine.filter fun kv => kv.2.active).length), (0, 14, mine.length)])
  | 0x50 | 0x54 => some (half v.records 0x50 off)
  | 0x58 => some v.flrCount
  | _ => none

def readRgn (s : State) (r off : Nat) : Option Word :=
  let h := s.unit r
  let R := s.region r
  let lv := if s.gov.carrier = some r then s.gov.level else 0
  let inPart := s.parts.find? fun kv => kv.2.loaded && kv.2.regions.contains r
  match off with
  | 0x40 => some (pack [(28, 4, lv), (24, 4, (inPart.map (·.1)).getD 0), (23, 1, bit inPart.isSome), (7, 1, bit h.split),
      (6, 1, bit (R.lostBy == 0x30)), (5, 1, bit h.parked), (4, 1, bit (lv != 0)), (3, 1, bit R.onB), (0, 1, bit R.inService)])
  | 0x44 => some (temps h.b h.a)
  | 0x48 => some (temps h.upper h.lower)
  | 0x4C => some (BitVec.ofNat 32 (Config.shown ((h.power : Rat) / 1000)))
  | 0x50 => some (BitVec.ofNat 32 (Config.shown (h.thetaOf r * 10000)))
  | 0x54 => some ((h.trim.getD (Config.factoryTrim r)).setWidth 32)
  | 0x58 => some h.implausible
  | 0x5C => some R.feedSwitch
  | 0x60 => some h.cyc20
  | 0x64 => some h.cyc40
  | 0x68 => some h.cyc60
  | 0x6C => some (wearWord h)
  | _ => none

/-- The registers of one row (Tables 8.1–8.5). -/
def readRow (s : State) (r off : Nat) : Word :=
  let x := s.row r
  let inFlight := (s.part x.part).rstate != 3 && (s.part x.part).inFlight r && x.state != 0
  match off with
  | 0x00 => pack [(16, 16, x.gen.toNat), (8, 8, x.refusal), (0, 4, x.state)]
  | 0x04 => x.ctrl
  | 0x08 => BitVec.ofNat 32 x.owner
  | 0x0C => pack [(31, 1, bit x.adaptNone), (16, 10, x.adaptSlot), (0, 16, x.adaptGen)]
  | 0x10 => lowWord x.deadline
  | 0x14 => highWord x.deadline
  | 0x18 => x.promptLen
  | 0x1C => x.maxLen
  | 0x20 => BitVec.ofNat 32 x.genLen
  | 0x24 => BitVec.ofNat 32 x.lastSeq
  | 0x28 => lowWord x.promptAddr
  | 0x2C => highWord x.promptAddr
  | 0x30 => x.reqSeed
  | 0x34 => x.invTemp
  | 0x38 => x.topP.setWidth 32
  | 0x3C => x.stopId
  | 0x40 => x.pfx
  | 0x44 => x.draftRow
  | 0x48 => lowWord x.exportDest
  | 0x4C => highWord x.exportDest
  | 0x50 => x.pageRoot
  | 0x54 => BitVec.ofNat 32 x.weightGen
  | 0x58 => pack [(24, 8, x.doneCode), (3, 1, bit x.recovered), (2, 1, bit x.overdue), (1, 1, bit x.missed), (0, 1, bit inFlight)]
  | 0x60 => BitVec.ofNat 32 x.acceptTime
  | 0x64 => BitVec.ofNat 32 (x.acceptTime / 2 ^ 32)
  | 0x68 => BitVec.ofNat 32 x.doneTime
  | 0x6C => BitVec.ofNat 32 (x.doneTime / 2 ^ 32)
  | _ => 0

/-- The row of an offset in SIG_ROW page n, and the register's offset in it (R259). -/
def rowAt (n off : Nat) : Option (Nat × Nat) :=
  let r := 31 * n + (off - 0x40) / 0x80
  if 0x40 ≤ off && off < 0xFC0 && r < 8192 then some (r, (off - 0x40) % 0x80) else none

/-- A page body's word at an offset; none where no chapter defines one (R479). -/
def readBody (s : State) (w page off : Nat) : Option Word :=
  let (f, n) := familyOf page
  match f with
  | 0x01 => readBru s off
  | 0x02 => readSec s w off
  | 0x03 => readPci s off
  | 0x04 => readHal s off
  | 0x05 => readThm s off
  | 0x06 => readSns s off
  | 0x07 => readAge s off
  | 0x08 => readFlt s w off
  | 0x09 => readCal s off
  | 0x0A => readRnd s w off
  | 0x0B => readKvp s w off
  | 0x0C => readSig s w off
  | 0x0D => readTwn s w off
  | 0x0E => (rowAt n off).map fun ro => if reaches s w ro.1 then readRow s ro.1 ro.2 else 0
  | 0x10 => readPrt s n off
  | 0x11 => readLnk s n off
  | 0x12 => readStk s n off
  | 0x13 => readVif s n off
  | 0x14 => readRgn s n off
  | _ => none

/-- Low words of 64-bit registers, by family and page offset. -/
def wideReg (family off : Nat) : Bool :=
  match family with
  | 0x02 => off == 0x48 || off == 0x58 || off == 0x80
  | 0x04 => off == 0x40 || off == 0x58 || off == 0x60
  | 0x06 => off == 0x58
  | 0x0A => off == 0x50 || off == 0x60 || off == 0x68 || off == 0x88
  | 0x0B => off == 0x58
  | 0x0C => decide (0x100 ≤ off) && decide (off < 0x500) && off % 32 == 0
  | 0x0E => let o := (off - 0x40) % 0x80
            decide (0x40 ≤ off) && decide (off < 0xFC0) && (o == 0x10 || o == 0x28 || o == 0x48 || o == 0x60 || o == 0x68)
  | 0x10 => off == 0x48 || off == 0x58 || off == 0x68 || (decide (0x100 ≤ off) && decide (off < 0x188) && off % 8 == 0 && wideCtr off)
  | 0x11 => off == 0x50 || off == 0x80 || off == 0x88
  | 0x13 => off == 0x50
  | _ => false

/-- A word that a low-word read captures: the high word of a 64-bit register, and HALL_TIME_NS's fraction (R10, Table 11.10). -/
def capturedWord (page o : Nat) : Bool := (4 ≤ o && wideReg (familyOf page).1 (o - 4)) || (page == pageHal && o == 0x48)

/-- One 32-bit word of a window: zero on a page that is not shown, at an undefined offset and where it is not aligned (R480); a high word that the window has captured is
returned in place of the current one (R10, R479, R481). -/
def readReg (s : State) (w off : Nat) : Word :=
  let page := off / 4096
  let o := off % 4096
  if !pageShown s w page || off % 4 != 0 then 0
  else if o < 0x40 then readHeader s w page o
  else
    match FMap.get none s.capHigh (2 ^ 28 * w + off - 4), capturedWord page o with
    | some c, true => c
    | _, _ => (readBody s w page o).getD 0

/-- What one read returns: a 32-bit access its word, a 64-bit access both; of a 64-bit register those are its words as they stand, whatever
the window has captured, and of two other registers each word's own (R10, R480). -/
def readAccess (s : State) (w : Nat) (r : RegRead) : DWord :=
  let off := r.off.toNat
  let page := off / 4096
  let o := off % 4096
  if !r.wide then (readReg s w off).setWidth 64
  else if off % 8 != 0 || !pageShown s w page then 0
  else if 0x40 ≤ o && wideReg (familyOf page).1 o then ((readBody s w page (o + 4)).getD 0) ++ ((readBody s w page o).getD 0)
  else readReg s w (off + 4) ++ readReg s w off

end Sys2Proof.Machine
end

