-- ==== Sys2Proof/Machine/RegWrite.lean ====
section
/-! DEFINITION. Writes to registers: access classes, quiescence, headers, shadows, 64-bit pairs and captures (R10, R480–R492, R497). -/
namespace Sys2Proof.Machine

/-- The bytes of `v` that are enabled, over those of `old` (R480). -/
def mergeBytes (old v : Word) (be : BitVec 4) : Word :=
  (List.range 4).foldl (fun (a : Word) i =>
    let m : Word := 0xFF <<< (8 * i)
    if be.getLsbD i then a &&& ~~~m ||| v &&& m else a) old

/-- An RWQ write: nothing for the value it holds, the effect while the block is quiesced, else CFG_WHILE_RUN (R488). -/
def rwq (s : State) (w page off : Nat) (same quiet : Bool) (act : State → State) : State :=
  if same then s else if quiet then act s else rejectWrite s w page off 1

/-! ### Headers (R483–R486) -/

/-- A W1C write: a message follows if it leaves the pending set non-empty (R484). -/
def w1cHeader (s : State) (w page : Nat) (x : Header) : State :=
  let s1 := s.setHeader w page x
  if x.routeEn && x.pendingSet then { s1 with host := s1.host.msi w x.vector.toNat } else s1

def definedEvents (page : Nat) (v : Word) : Word := v &&& BitVec.ofNat 32 (2 ^ evtBits (familyOf page).1 - 1)

/-- EVT_STAT_CLEAR. A write that clears nothing is a W1C write too, and sends the page's message again while events are pending (DESIGN
CHOICE, log entry 107: Table 0.4 has a zero take no effect, R484 has every W1C write answered). -/
def execEvtStatClear (w : WinId) (page : BitVec 16) (v : Word) (s : State) : Out :=
  if pageShown s w.val page.toNat then
    let x := s.header w.val page.toNat
    .next (w1cHeader s w.val page.toNat { x with evtStat := x.evtStat &&& ~~~v })
  else .next s

def execEvtForce (w : WinId) (page : BitVec 16) (v : Word) (s : State) : Out :=
  if pageShown s w.val page.toNat then
    let x := s.header w.val page.toNat
    .next (s.updateHeader w.val page.toNat { x with evtStat := x.evtStat ||| definedEvents page.toNat v })
  else .next s

def execErrClear (w : WinId) (page : BitVec 16) (s : State) : Out :=
  if pageShown s w.val page.toNat then
    let x := s.header w.val page.toNat
    .next (s.setHeader w.val page.toNat { x with errValid := false, errCause := 0, errOffset := 0, errCount := 0 })
  else .next s

/-- The counters of a page return to zero (R486); counts that are state stay. -/
def clearCounters (s : State) (page : Nat) : State :=
  let (f, n) := familyOf page
  match f with
  | 0x03 => { s with host := { s.host with retrains := 0, rewrites := 0 } }
  | 0x08 => { s with fltLost := 0 }
  | 0x10 => s.mapPart n fun P => { P with ctr := [] }
  | 0x11 => s.setPort n { s.port n with ctr := [], txCells := 0, rxCells := 0 }
  | 0x12 => s.setUnit (stackUnit n) { s.unit (stackUnit n) with cyc20 := 0, cyc40 := 0, cyc60 := 0 }
  | 0x13 => s.setVif n { s.vif n with records := 0, flrCount := 0 }
  | 0x14 =>
    (s.setUnit n { s.unit n with implausible := 0, cyc20 := 0, cyc40 := 0, cyc60 := 0 }).setRegion n { s.region n with feedSwitch := 0 }
  | _ => s

/-- CTR_CLEAR acts only from the physical function's window. -/
def execCtrClear (w : WinId) (page : BitVec 16) (s : State) : Out :=
  if w.val = 0 && pageShown s 0 page.toNat then .next (clearCounters s page.toNat) else .next s

/-- A partition that is held takes no request for an idle boundary (Table 15.5). -/
def askBoundary (s : State) (p : Nat) : State :=
  s.mapPart p fun P => if P.rstate = 0 && !P.frozen then { P with asked := true } else P

/-- CFG_APPLY: with a shadow pending on the page it asks for idle boundaries, or applies the converter's between scans. -/
def execCfgApply (w : WinId) (page : BitVec 16) (s : State) : Out :=
  let g := page.toNat
  if !pageShown s w.val g || !pagePend s w.val g then .next s
  else
    let (f, n) := familyOf g
    if f = 0x06 then
      .next (if s.sense.queue.isEmpty then applySense s else { s with sense := { s.sense with applying := true } })
    else if f = 0x10 then .next (askBoundary s n)
    else .next ((List.range 16).foldl askBoundary s)

/-! ### Shadows (R490) -/

/-- The word that a write of an RWS register holds for its fields. -/
def holdShadow (s : State) (w page off : Nat) (v : Word) : State :=
  let (f, n) := familyOf page
  if f = 0x0C && 0x100 ≤ off && off < 0x500 && off % 32 = 0x0C then
    let k := (off - 0x100) / 32
    s.setRing w k { s.ring w k with shadow := some v }
  else if w != 0 then s
  else if f = 0x10 && off = 0x74 then s.mapPart n fun P => { P with specShadow := some (v &&& 0xFFF0FFFF) }
  else if f = 0x0A && off = 0x98 then { s with house := { s.house with log := { s.house.log with shadow := some v } } }
  else if f = 0x06 && off = 0x40 then { s with sense := { s.sense with shCfg := some (v &&& 0xF) } }
  else if f = 0x06 && off = 0x48 then { s with sense := { s.sense with shSe := some v } }
  else if f = 0x06 && off = 0x4C then { s with sense := { s.sense with shDiff := some (v &&& 0xFF) } }
  else if f = 0x06 && off = 0x50 then { s with sense := { s.sense with shRgn := some (v &&& 0xFF) } }
  else s

def execRwsShadowWrite (w : WinId) (off : BitVec 28) (v : Word) (s : State) : Out :=
  let g := off.toNat / 4096
  if pageShown s w.val g then .next (holdShadow s w.val g (off.toNat % 4096) v) else .next s

/-! ### STREAM_ENABLE (Table 8.13) -/

def execStreamEnable (w : WinId) (k : Fin 32) (v : Word) (s : State) : Out :=
  if !pageShown s w.val pageSig then .next s
  else
    let (s1, bad) := setStreamCfg s w.val k.val v
    .next (if bad then rejectWrite s1 w.val pageSig (0x108 + 32 * k.val) 1 else s1)

/-! ### Register bodies -/

/-- An op written to a command register that its chapter does not name: refused (R330, R360, R477, R499, R500). -/
def badOp (s : State) (w f op : Nat) : State :=
  match f with
  | 0x01 => if s.bru.busy || op < 3 then s else { s with bru := { s.bru with status := 1 } }
  | 0x02 => if op < 5 then s else endSec s w (if w = 0 && !s.recovery then 1 else 5)
  | 0x09 => if op < 3 then s else { s with cal := { s.cal with status := 1 } }
  | 0x0A => if op < 6 then s else if (s.rn w).busy then s.raiseRnd w 2 false else s.endRnd w 1
  | 0x0B =>
    if op < 5 then s
    else if (s.kv w).busy then s.raiseKvp w 2
    else (s.setKv w { s.kv w with status := 1 }).raiseKvp w 1
  | 0x0D => if op < 3 then s else s.setTwn w { s.twnOf w with status := 1 }
  | _ => s

def writeRnd (s : State) (w off : Nat) (v : Word) : State :=
  let R := s.rn w
  let L := s.house.log
  if off = 0x44 then s.setRn w { R with part := v &&& 0x03FF000F }
  else if off = 0x48 then s.setRn w { R with flags := v &&& 3 }
  else if off = 0x58 then s.setRn w { R with len := v }
  else if off = 0x80 && w = 0 then { s with house := { s.house with interval := max 60 (v.toNat % 65536) } }
  else if off = 0x90 && w = 0 then
    let on := v.getLsbD 31
    let sz := (v.extractLsb' 26 5).toNat
    let s1 := if L.enable && sz != L.log2size then rejectWrite s w pageRnd off 1 else s
    let L1 := if L.enable then L else { L with log2size := sz }
    -- as for a stream ring, an enable starts the counts again (R355)
    let L2 := if on && !L.enable then { L1 with produced := 0, consumed := 0, recs := [] } else L1
    { s1 with house := { s1.house with log := { L2 with enable := on } } }
  else s

def writeKvp (s : State) (w off : Nat) (v : Word) : State :=
  let K := s.kv w
  if off = 0x44 then s.setKv w { K with part := v &&& 0xF }
  else if off = 0x48 then s.setKv w { K with handle := v }
  else if off = 0x4C then s.setKv w { K with row := v &&& 0x1FFF }
  else if off = 0x50 then s.setKv w { K with len := v }
  else s

def writeTwn (s : State) (w off : Nat) (v : Word) : State :=
  let x := s.twnOf w
  if off = 0x40 then s.setTwn w { x with sel := v &&& 0xF003FFFF }
  else if off = 0x44 then s.setTwn w { x with addr := v }
  else if off = 0x4C then s.setTwn w { x with len := v }
  else if off = 0x50 then s.setTwn w { x with dataIn := v }
  else s

/-- SERVE, KVCFG and HOLD_STAT (Tables 6.5, 8.17, 9.11); `raw` holds the enabled bytes only. -/
def writePrt (s : State) (w p off : Nat) (v raw : Word) : State :=
  let P := s.part p
  let page := pagePrt + p
  if off = 0x50 then
    s.setPart p { P with
      hsFault := P.hsFault && !raw.getLsbD 4, hsGovernor := P.hsGovernor && !raw.getLsbD 3, hsHoldreq := P.hsHoldreq && !raw.getLsbD 2
      hsLadder := P.hsLadder && !raw.getLsbD 1, hsSlip := P.hsSlip && !raw.getLsbD 0 }
  else if off = 0x70 then
    let n := v &&& 0x3FFFFE00
    rwq s w page off (n == P.serve) (partQuiesced s p) fun s => s.mapPart p fun P => { P with serve := n }
  else if off = 0x78 then
    let win := (v.extractLsb' 4 4).toNat
    let fmt := v.getLsbD 0
    let refused := fmt && !P.kvFmt && P.image.isSome && !P.layout.2.1
    rwq s w page off (win == P.kvWindow && fmt == P.kvFmt) (partQuiesced s p) fun s =>
      let s1 := s.mapPart p fun P => { P with kvWindow := win, kvFmt := if refused then P.kvFmt else fmt }
      if refused then s1.raiseKvp w 6 else s1
  else s

def writeVif (s : State) (w n off : Nat) (v : Word) : State :=
  let x := s.vif n
  let page := pageVif + n
  let q := vifQuiesced s n
  if off = 0x40 then
    let c := (v.extractLsb' 16 14).toNat
    let b := (v.extractLsb' 0 13).toNat
    rwq s w page off (c == x.rowCount && b == x.rowBase) q fun s => s.setVif n { x with rowCount := c, rowBase := b }
  else if off = 0x44 then
    let c := (v.extractLsb' 0 14).toNat
    rwq s w page off (c == x.rowQuota) q fun s => s.setVif n { x with rowQuota := c }
  else if off = 0x48 then
    let m := v.extractLsb' 0 16
    rwq s w page off (m == x.partMask) q fun s => s.setVif n { x with partMask := m }
  else s

def writeHal (s : State) (w off : Nat) (v : Word) : State :=
  let H := s.hall
  if off = 0x50 then
    let r := v.getLsbD 31
    let h := v.toNat % 256
    rwq s w pageHal off (r == H.root && h == H.holdover) (hallQuiesced s) fun s =>
      -- a root is at depth 0; one that is root no longer follows its upstream port (R370)
      checkUpstream { s with hall := { H with root := r, holdover := h, depth := if r && H.state = 2 then 0 else H.depth } }
  else if off = 0x54 then
    let a := v.extractLsb' 0 16
    if a = 0 || a = 0xFFFF then s
    else rwq s w pageHal off (a == H.addr) (hallQuiesced s) fun s => { s with hall := { H with addr := a } }
  else s

def writeLnk (s : State) (n off : Nat) (v : Word) : State :=
  let L := s.port n
  if off = 0x44 then
    let on := v.getLsbD 31
    if on = L.enable then s
    else
      let s1 := portState s n (if on then 1 else 0) 0
      s1.setPort n { s1.port n with enable := on }
  else if off = 0x48 then s.setPort n { L with slotSel := v &&& 0xBFF }
  else s

def writeRgn (s : State) (w r off : Nat) (v : Word) : State :=
  if off = 0x54 then
    let b := v.extractLsb' 0 8
    let t := if b ≤ 70 then b else Config.trimAbove b
    rwq s w (pageRgn + r) off (b == (s.unit r).trim.getD (Config.factoryTrim r)) (regionQuiesced s r) fun s =>
      let s1 := s.setUnit r { s.unit r with trim := some t }
      { s1 with cal := { s1.cal with unsaved := true } }
  else s

/-- A 32-bit RWQ register of a row, replaced (Tables 8.1, 8.3, 8.4). -/
def Row.put (x : Row) (off : Nat) (v : Word) : Row :=
  match off with
  | 0x04 => { x with ctrl := v &&& 0xFFF0001F }
  | 0x0C => { x with adaptNone := v.getLsbD 31, adaptSlot := (v.extractLsb' 16 10).toNat }
  | 0x18 => { x with promptLen := v }
  | 0x1C => { x with maxLen := v }
  | 0x30 => { x with reqSeed := v }
  | 0x34 => { x with invTemp := v }
  | 0x38 => { x with topP := v.extractLsb' 0 16 }
  | 0x3C => { x with stopId := v }
  | 0x40 => { x with pfx := v }
  | 0x44 => { x with draftRow := v &&& 0x80001FFF }
  | _ => x

/-- A 64-bit RWQ register of a row, replaced. -/
def Row.putWide (x : Row) (off : Nat) (v : DWord) : Row :=
  match off with
  | 0x10 => { x with deadline := v }
  | 0x28 => { x with promptAddr := v }
  | 0x48 => { x with exportDest := v &&& 0xFFFF000F00001FFF }
  | _ => x

/-- A host transition of Table 8.7: its write is a command of its own. -/
def rowMoves (a b : Nat) : Bool :=
  (a == 0 && b == 1) || (a == 1 && b == 0) || (a == 1 && b == 2) || (a == 2 && b == 1) ||
  ((a == 3 || a == 4 || a == 5 || a == 9) && b == 6) || ((a == 7 || a == 8) && b == 0)

/-- A write to a row: unreachable rows and refused ROW_STATE writes raise ROW_WRITE_REJECT; RWQ fields change while FILLING. -/
def writeRow (s : State) (w page off r o : Nat) (v : Word) : State :=
  let x := s.row r
  if !reaches s w r then s.raiseSig w 1
  else if o = 0 then
    if v.extractLsb' 16 16 = x.gen && rowMoves x.state (v.toNat % 16) then s else s.raiseSig w 1
  else
    let y := x.put o v
    rwq s w page off (y == x) (x.state == 1) fun s => s.setRow r y

/-- A 32-bit write to a word of a page body that a chapter defines, other than half of a 64-bit register. `v` holds the register's
other bytes where the write enables none; `raw` holds the enabled bytes only. Registers whose writes are commands of their own, and RO
registers, are left alone. -/
def writeBody (s : State) (w page off : Nat) (v raw : Word) : State :=
  let (f, n) := familyOf page
  match f with
  | 0x01 => if off = 0x44 then badOp s w f (raw.toNat % 16)
            else if off = 0x48 then { s with bru := { s.bru with sel := v &&& 0x9FFF } } else s
  | 0x02 => if off = 0x44 then badOp s w f (raw.toNat % 16)
            else if off = 0x50 && w = 0 then s.setSecWin w { s.secOf w with len := v }
            else if 0x60 ≤ off && off < 0x80 then
              s.setSecWin w { s.secOf w with nonce := FMap.set 0 (s.secOf w).nonce ((off - 0x60) / 4) v }
            else s
  | 0x04 => writeHal s w off v
  | 0x05 => if off = 0x44 then { s with gov := { s.gov with capUser := v &&& 0xFFFF } } else s
  | 0x06 => if off = 0x44 then s else holdShadow s w page off v
  | 0x07 => if off = 0x44 then { s with age := { s.age with warn := v &&& 0xFFFF } } else s
  | 0x09 => if off = 0x40 then { s with cal := { s.cal with sel := v &&& 0xFF00FFFF } }
            else if off = 0x50 then badOp s w f (raw.toNat % 16) else s
  | 0x0A => if off = 0x40 then badOp s w f (raw.toNat % 16)
            else if off = 0x98 then holdShadow s w page off v else writeRnd s w off v
  | 0x0B => if off = 0x40 then badOp s w f (raw.toNat % 16) else writeKvp s w off v
  | 0x0C => holdShadow s w page off v
  | 0x0D => if off = 0x48 then badOp s w f (raw.toNat % 16) else writeTwn s w off v
  | 0x0E => match rowAt n off with
      | some (r, o) => writeRow s w page off r o v
      | none => s
  | 0x10 => if off = 0x74 then holdShadow s w page off v else writePrt s w n off v raw
  | 0x11 => writeLnk s n off v
  | 0x13 => writeVif s w n off v
  | 0x14 => writeRgn s w n off v
  | _ => s

/-- A 64-bit register takes both words (R10, R488). -/
def writeWide (s : State) (w page off : Nat) (v : DWord) : State :=
  let (f, n) := familyOf page
  match f with
  | 0x02 => if off = 0x48 then s.setSecWin w { s.secOf w with addr := v } else s
  | 0x04 => if off = 0x58 then { s with hall := { s.hall with epochNext := v } } else s
  | 0x0A =>
    let R := s.rn w
    if off = 0x50 then s.setRn w { R with addr := v }
    else if off = 0x60 then s.setRn w { R with table := v }
    else if off = 0x68 then s.setRn w { R with switchAt := v }
    else if off = 0x88 && w = 0 then
      rwq s w page off (v == s.house.log.base) (!s.house.log.enable) fun s =>
        { s with house := { s.house with log := { s.house.log with base := v } } }
    else s
  | 0x0B => if off = 0x58 then s.setKv w { s.kv w with dest := v &&& 0xFFFF000F00000001 } else s
  | 0x0C =>
    let k := (off - 0x100) / 32
    rwq s w page off (v == (s.ring w k).base) (!(s.ring w k).enable) fun s => s.setRing w k { s.ring w k with base := v }
  | 0x0E => match rowAt n off with
    | some (r, o) =>
      if !reaches s w r then s.raiseSig w 1
      else
        let x := s.row r
        rwq s w page off (x.putWide o v == x) (x.state == 1) fun s => s.setRow r (x.putWide o v)
    | none => s
  | 0x10 => if off = 0x48 then
      rwq s w page off (v == (s.part n).seed) (partQuiesced s n) fun s => s.mapPart n fun P => { P with seed := v } else s
  | 0x11 => if off = 0x50 then
      let late := v != 0 && decide (v.toNat ≤ s.ns / 65536)
      let s1 := s.setPort n { s.port n with swapFrame := v, swapLate := if late then s.ns / 65536 + 1 else 0 }
      if late then s1.raiseLnk n 3 else s1
    else s
  | _ => s

/-! ### REGISTER_WRITE (R480, R487) -/

/-- Header registers without a command of their own: EVT_EN, EVT_ROUTE, and PAGE_STAT's W1C bits. EVT_EN bits of event numbers that the
page's table reserves are stored and read back (DESIGN CHOICE, log entry 107). -/
def writeHeader (s : State) (w page off : Nat) (v raw : Word) : State :=
  let x := s.header w page
  if off = 0x14 then s.updateHeader w page { x with evtEn := v }
  else if off = 0x1C then
    s.updateHeader w page { x with routeEn := v.getLsbD 31, routeHdr := v.getLsbD 8, vector := v.extractLsb' 0 6 }
  else if off = 0x0C && (raw.getLsbD 29 || raw.getLsbD 28) then
    w1cHeader s w page { x with cfgReject := x.cfgReject && !raw.getLsbD 29, badWrite := x.badWrite && !raw.getLsbD 28 }
  else s

/-- The low word that a window holds for a 64-bit register at a window offset. -/
def lowKey (w off : Nat) : Nat := 2 ^ 28 * w + off

/-- The 64-bit register's value as its parts read now. -/
def currentWide (s : State) (w page o : Nat) : DWord :=
  ((readBody s w page (o + 4)).getD 0) ++ ((readBody s w page o).getD 0)

/-- A word of a row that the window does not reach (R260). -/
def hiddenRow (s : State) (w page o : Nat) : Bool :=
  match familyOf page with
  | (0x0E, n) => match rowAt n o with
    | some (r, _) => !reaches s w r
    | none => false
  | _ => false

/-- The offset that ERR_FIRST gives for a page offset: its word's, or the low word's of a 64-bit register (Table 15.3). -/
def recordedOffset (page o : Nat) : Nat :=
  let b := o / 4 * 4
  if 0x44 ≤ b && wideReg (familyOf page).1 (b - 4) then b - 4 else b

/-- One 32-bit word of a write: the header; the low word of a 64-bit register is held, its high word takes effect with it (R10); any
other register by its class; an undefined offset is recorded with cause 2 (R485). A low-word write whose byte enables cover part of the word
takes the other bytes from the low word that the window holds, else from the current low word at that time (DESIGN CHOICE, log entry 107:
R10 and R480 do not say). -/
def writeWord (s : State) (w off : Nat) (v : Word) (be : BitVec 4) : State :=
  let page := off / 4096
  let o := off % 4096
  let raw := mergeBytes 0 v be
  let f := (familyOf page).1
  if o < 0x40 then writeHeader s w page o (mergeBytes (readHeader s w page o) v be) raw
  else if f = 0x02 && w != 0 && (o = 0x50 || o = 0x80 || o = 0x84) then s
  else if (readBody s w page o).isNone then rejectWrite s w page o 2
  else if pageRo w page then s
  else if hiddenRow s w page o then s.raiseSig w 1
  else if wideReg f o then
    let old := (FMap.get none s.heldLow (lowKey w off)).getD (lowWord (currentWide s w page o))
    { s with heldLow := FMap.set none s.heldLow (lowKey w off) (some (mergeBytes old v be)) }
  else if 4 ≤ o && wideReg f (o - 4) then
    let cur := currentWide s w page (o - 4)
    let low := (FMap.get none s.heldLow (lowKey w (off - 4))).getD (lowWord cur)
    let s1 := { s with heldLow := FMap.set none s.heldLow (lowKey w (off - 4)) none }
    writeWide s1 w page (o - 4) (mergeBytes (highWord cur) v be ++ low)
  else writeBody s w page o (mergeBytes ((readBody s w page o).getD 0) v be) raw

/-- One 64-bit access: both words of a 64-bit register at once, or two 32-bit registers, the lower first. With byte enables in one word only
the other word keeps its current value, and a low word that the window holds stays held (DESIGN CHOICE, log entry 107). -/
def writePair (s : State) (w off : Nat) (v : DWord) (be : BitVec 8) : State :=
  let page := off / 4096
  let o := off % 4096
  if 0x40 ≤ o && wideReg (familyOf page).1 o && (readBody s w page o).isSome then
    if pageRo w page || ((familyOf page).1 = 0x02 && w != 0 && o = 0x80) then s
    else
      let cur := currentWide s w page o
      writeWide s w page o (mergeBytes (highWord cur) (highWord v) (be.extractLsb' 4 4) ++
        mergeBytes (lowWord cur) (lowWord v) (be.extractLsb' 0 4))
  else
    let s1 := if be.extractLsb' 0 4 = 0 then s else writeWord s w off (lowWord v) (be.extractLsb' 0 4)
    if be.extractLsb' 4 4 = 0 then s1 else writeWord s1 w (off + 4) (highWord v) (be.extractLsb' 4 4)

/-- REGISTER_WRITE: ignored on a page that is not shown; recorded with cause 2 when not aligned to its size (R480, R481). -/
def execRegisterWrite (w : WinId) (off : BitVec 28) (wide : Bool) (v : DWord) (be : BitVec 8) (s : State) : Out :=
  let o := off.toNat
  let page := o / 4096
  if !pageShown s w.val page then .next s
  else if o % (if wide then 8 else 4) != 0 then
    .next (rejectWrite s w.val page (recordedOffset page (o % 4096)) 2)
  else if wide then .next (writePair s w.val o v be)
  else if be.extractLsb' 0 4 = 0 then .next s
  else .next (writeWord s w.val o (lowWord v) (be.extractLsb' 0 4))

/-! ### Captures (R10, R497) -/

/-- A 32-bit read: of the low word of a 64-bit register it captures the high word for the window, of HALL_TIME_NS the fraction too (Table
11.10); of a captured word it ends that capture. -/
def captureWord (s : State) (w o : Nat) : State :=
  let page := o / 4096
  let frac := if page = pageHal && o % 4096 = 0x40 then some (readBody s w page 0x48) else none
  if wideReg (familyOf page).1 (o % 4096) then
    let m := FMap.set none s.capHigh (lowKey w o) (some ((readBody s w page (o % 4096 + 4)).getD 0))
    { s with capHigh := (frac.map fun v => FMap.set none m (lowKey w (o + 4)) v).getD m }
  else if capturedWord page (o % 4096) then { s with capHigh := FMap.set none s.capHigh (lowKey w (o - 4)) none }
  else s

/-- A read of a register. A 64-bit read of a 64-bit register takes both words as they stand: it captures nothing but HALL_TIME_NS's fraction,
and what the window had captured of the register ends (DEDUCED, log entry 107). An access that is not aligned captures nothing (R480). -/
def execLowWordReadCapture (w : WinId) (r : RegRead) (s : State) : Out :=
  let o := r.off.toNat
  let page := o / 4096
  if !pageShown s w.val page || o % (if r.wide then 8 else 4) != 0 then .next s
  else if !r.wide then .next (captureWord s w.val o)
  else if wideReg (familyOf page).1 (o % 4096) then
    let s1 := captureWord s w.val o
    .next { s1 with capHigh := FMap.set none s1.capHigh (lowKey w.val o) none }
  else .next (captureWord (captureWord s w.val o) w.val (o + 4))

/-- A 32-bit read of the first word of an FLT slot captures the record for the window; the next read of each other word returns the captured
word and ends its capture. -/
def captureRecord (s : State) (w o : Nat) : State :=
  let k := lowKey w (o / 32 * 32)
  if fltOffset o then
    let x := if o % 32 = 0 then (fltSlot s o).map some else (FMap.get [] s.capFlt k).set (o % 32 / 4) none
    { s with capFlt := FMap.set [] s.capFlt k x }
  else s

/-- A read of an FLT slot: a 64-bit access reads its two words in turn (R480, R497). -/
def execFltRecordRead (w : WinId) (r : RegRead) (s : State) : Out :=
  let off := r.off.toNat
  let o := off % 4096
  if off / 4096 != pageFlt || !pageShown s w.val pageFlt || off % (if r.wide then 8 else 4) != 0 then .next s
  else
    let s1 := captureRecord s w.val o
    .next (if r.wide then captureRecord s1 w.val (o + 4) else s1)

end Sys2Proof.Machine
end

