-- ==== Sys2Proof/Machine/Calib.lean ====
section
/-! DEFINITION. The CAL commands: user offsets, SAVE and RESTORE (R473–R475, R498, R499). -/
namespace Sys2Proof.Machine

/-- The key of a calibration item in the offset tables. -/
def calKey (kind index : Nat) : Nat := 65536 * kind + index

/-- CAL_USER: the item selected takes the offset, limited to its range; an item without one takes none (R498). -/
def execCalUserWrite (w : WinId) (v : Word) (s : State) : Out :=
  if !pageShown s w.val pageCal then .next s
  else match calRange (calKind s) (calIndex s) with
    | none => .next (rejectWrite s w.val pageCal 0x44 2)
    | some lim =>
      let k := calKey (calKind s) (calIndex s)
      let x := clampInt (-lim) lim v.toInt
      .next { s with cal := { s.cal with
        user := FMap.set 0 s.cal.user k x
        unsaved := s.cal.unsaved || FMap.get 0 s.cal.user k != x } }

/-- The VCORE trims that differ from the factory's, by region. -/
def userTrims (s : State) : FMap Int :=
  s.heat.filterMap fun (kv : Nat × Heat) => kv.2.trim.map fun b => (kv.1, b.toInt)

/-- SAVE: flash takes every user offset and trim; a write of flash that fails ends with status 2 and leaves it (R475, R498, R499). -/
def execSave (q : SaveReq) (s : State) : Out :=
  if !pageShown s q.win.val pageCal then .next s
  else if !q.flashOk then .next { s with cal := { s.cal with status := 2 } }
  else .next { s with cal := { s.cal with flash := s.cal.user, flashTrim := userTrims s, unsaved := false, status := 0 } }

/-- A region's trim at its factory value: an RWQ write like another, refused in a loaded partition (R456, R488, Table 14.10). -/
def factoryTrim (w : Nat) (s : State) (r : Nat) : State :=
  rwq s w (pageRgn + r) 0x54 ((s.unit r).trim.getD (Config.factoryTrim r) == Config.factoryTrim r) (regionQuiesced s r) fun s => s.setUnit r { s.unit r with trim := none }

/-- RESTORE: every user offset zero and every trim the factory's; flash follows at the next SAVE (R475, R499). -/
def execRestore (w : WinId) (s : State) : Out :=
  if !pageShown s w.val pageCal then .next s
  else .next ((List.range 144).foldl (factoryTrim w.val) { s with cal := { s.cal with user := [], unsaved := true, status := 0 } })

end Sys2Proof.Machine
end

