-- ==== Sys2Proof/Machine/Delivery.lean ====
section
/-! DEFINITION. Commands of token delivery and speculation; a row that they make ready starts its wait (R272, R278, R285, R286). -/
namespace Sys2Proof.Machine

/-- Row r starts its wait if it is ready now and did not wait yet (R272). -/
def noteRow (s : State) (r : Nat) : State :=
  let x := s.row r
  if x.since.isNone && isReady s x.part r x then s.setRow r { x with since := some s.ns } else s

/-! ### Records and notices (R278) -/

/-- The held token or the completion record goes out when the ring has room. -/
def execStreamRecordWrite (r : RowId) (s : State) : Out :=
  .next (noteRow (draftAnswer (writeCompletion (deliverToken s r.val) r.val) r.val) r.val)

/-- The oldest token notice at the rim that can be judged now is judged. -/
def execTokenNotice (p : PartId) (s : State) : Out :=
  let P := s.part p.val
  match pickRim (noticeReady s) P.rimIn with
  | some (f, rest) =>
    match f.body with
    | .token row tok id flags =>
      .next (noteRow (judgeNotice (s.setPart p.val { P with rimIn := rest }) row tok (BitVec.ofNat 32 id) flags) row)
    | _ => .next s
  | none => .next s

/-! ### Speculative messages (R285, R286) -/

/-- The draft row's log fits a REQ: it reaches index b − 1 − n_new, and the tokens stay below MAX_LEN. -/
def fitsReq (x : Row) (m : SpecMsg) : Bool :=
  decide (m.tokens.length ≤ m.b) && decide (m.b - m.tokens.length ≤ x.log.length) && decide (m.b ≤ x.maxLen.toNat)

/-- A REQ at the draft module: the log beyond b − 1 − n_new is void and the new tokens are logged; the notices of steps closed before it are
dropped as they come. A RUNNING row works on; one that is not RUNNING yet, or cannot go on (its drafts would pass MAX_LEN: it takes
the tokens only), answers with a PROP of k = 0 (R285). -/
def execSpecReq (p : PartId) (m : SpecMsg) (s : State) : Out :=
  let x := s.row m.draftRow
  if !(x.draft && x.part == p.val) then .next s
  else if fitsReq x m && (x.state == 3 || x.state == 4 || x.state == 5 || (x.state == 2 && x.fetch == .done)) then
    let log := x.log.take (m.b - m.tokens.length) ++ m.tokens.map fun t => (t, BitVec.ofNat 32 s.ns)
    let same := ((x.log.zip log).takeWhile fun ab => ab.1.1 == ab.2.1).length
    let x1 := { x with
      log := log, genLen := m.b - x.promptLen.toNat, fed := min x.fed same, closedTo := min x.closedTo same, hold := none
      stale := x.stale + x.notices, staleTo := (s.part p.val).stepNo - 1, notices := 0 }
    if x.state = 5 then
      if m.b + m.k ≤ x.maxLen.toNat then
        .next (noteRow (s.setRow m.draftRow { x1 with want := some (m.b, m.k, m.mainRow) }) m.draftRow)
      else
        .next (noteRow (emptyProp (s.setRow m.draftRow { x1 with want := some (m.b, 0, m.mainRow) }) p.val m.b m.k m.mainRow m.draftRow)
          m.draftRow)
    else .next (emptyProp (s.setRow m.draftRow x1) p.val m.b m.k m.mainRow m.draftRow)
  else .next (emptyProp s p.val m.b m.k m.mainRow m.draftRow)

/-- A PROP: taken if it answers the open REQ, discarded otherwise (R286). The draft has done with that REQ then. -/
def execSpecProp (p : PartId) (m : SpecMsg) (s : State) : Out :=
  let x := s.row m.mainRow
  let work := if x.working == some m.b then none else x.working
  if x.part == p.val && (x.asked.map (·.1)) == some m.b then
    .next (noteRow (s.setRow m.mainRow { x with asked := none, prop := some (m.tokens.take m.k), working := work }) m.mainRow)
  else if x.part == p.val then .next (s.setRow m.mainRow { x with working := work })
  else .next s

/-- An END completes the draft row with done code 3. -/
def execSpecEnd (p : PartId) (m : SpecMsg) (s : State) : Out :=
  let x := s.row m.draftRow
  if x.draft && x.part == p.val && x.active then
    let s1 := s.setRow m.draftRow { x with state := 6, cancelAt := x.lastSeq, want := none }
    .next (if (s.part p.val).inFlight m.draftRow then s1 else complete s1 m.draftRow 3)
  else .next s

/-- The wait for a PROP runs out: the pass will be a decode entry (R286). -/
def execSpecTimeout (r : RowId) (s : State) : Out :=
  let x := s.row r.val
  match x.asked with
  | some (_, at_) =>
    if decide (at_ + (s.part x.part).waitNs ≤ s.ns) then
      .next (noteRow (((s.setRow r.val { x with asked := none, prop := none }).countPart x.part ctrSpecTimeout 1).raiseSig x.owner 7) r.val)
    else .next s
  | none => .next s

end Sys2Proof.Machine
end

