-- ==== Sys2Proof/Machine/Hop.lean ====
section
/-! DEFINITION. One clk of an output of a router: FLIT_HOP (R219, R220, R225–R232, R243). -/
namespace Sys2Proof.Machine

/-- What the output grants in one clk: the skid first, then the FIFOs by rank and rotation (R219, R229). A flit drained from the skid leaves
the rotation of its channel where it stands (DESIGN CHOICE, log entry 99). The answer names the channel granted, and the FIFO it was
granted from. -/
def grantOut (s : State) (t : TileAddr) (out : Port) : State × Option Chan × Option (Port × Chan) :=
  match pickSkid s t out [] (s.tile t).skid with
  | some (k, rest) => (pass (s.mapTile t fun T => { T with skid := rest }) t out k.chan k.flit, some k.chan, none)
  | none =>
    match pickChan s t out with
    | some (c, ps, forced) =>
      match rotate (FMap.get 0 (s.tile t).rot (3 * portNo out + chanNo c)) ps with
      | some p => (grantFifo s t out c p forced, some c, some (p, c))
      | none => (s, none, none)
    | none => (s, none, none)

/-- One clk of output `out` of the router of `t`. A flit for a LOST region is discarded, counted and reported as a fault of the partition
(R232); otherwise one flit is granted, the waits are counted, and heads that were not granted move into the skid while it has room. -/
def flitHop (s : State) (t : TileAddr) (out : Port) : State :=
  match lostHead s t with
  | some (p, c) =>
    errorEvent (s.mapTile t fun T => (T.popFifo p c).count ctrRouteDrop 1)
      { cls := 0x21, part := (s.tile t).part, region := some (regionIdOf t), tile := some t, detail := 0, loc := 0 }
  | none =>
    let g := grantOut s t out
    let s1 := g.1.mapTile t (countWaits s t out g.2.1)
    ((skidHeads s t out).filter fun pc => some pc != g.2.2).foldl
      (fun (s : State) pc => if (s.tile t).skid.length < 256 then intoSkid s t pc.1 pc.2 else s) s1

def execFlitHop (t : TileAddr) (out : Port) (s : State) : Out := .next (flitHop (admitRim s t) t out)

end Sys2Proof.Machine
end

