-- ==== Sys2Proof/Machine/Twn.lean ====
section
/-! DEFINITION. The TWN commands: reading one tile's spaces and writing its TILE_CTRL (R62, R63, R500, R501). -/
namespace Sys2Proof.Machine

/-- A tile that TWN_SEL names and reaches: its key in the tile table, its logical place, and whether its region is lost. -/
structure Reached where
  key   : Nat
  place : Option TileAddr
  lost  : Bool
  deriving DecidableEq, Repr

/-- A lost region whose DRAM is in self-refresh (Table 12.6). -/
def selfRefreshed (R : Region) : Bool := R.lostBy == 0x31 || R.lostBy == 0x32 || R.lostBy == 0x33

/-- The logical tile under a physical one, or the spare, of region r (R16, R17). -/
def physPlace (R : Region) (pcol prow : Nat) : Option (Option TileAddr) :=
  let row := 27 * (prow / 28)
  let f := (R.mapped.find? fun m => m.1 == pcol % 28).map (·.2)
  let lr := prow % 28
  match f with
  | some f =>
    if lr = f then none
    else (tileAt (512 * pcol + (row + if lr < f then lr else lr - 1))).map some
  | none => if lr = 27 then some none else (tileAt (512 * pcol + (row + lr))).map some

/-- The key of the spare tile of a physical column and region row. -/
def spareKey (pcol prow : Nat) : Nat := 512 * pcol + 324 + prow / 28

/-- The tile that TWN_SEL reaches (R501). -/
def twnReach (s : State) (sel : Word) : Option Reached :=
  let c := (sel.extractLsb' 9 9).toNat
  let r := (sel.extractLsb' 0 9).toNat
  if sel.getLsbD 31 then
    if 336 ≤ c || 336 ≤ r then none
    else
      let R := s.region (physRegion c r)
      match physPlace R c r with
      | none => none
      | some none =>
        if R.inService then some ⟨spareKey c r, none, false⟩ else if selfRefreshed R then some ⟨spareKey c r, none, true⟩ else none
      | some (some t) =>
        if R.inService && (s.tile t).inService then some ⟨tileKey t, some t, false⟩
        else if selfRefreshed R then some ⟨tileKey t, some t, true⟩
        else none
  else if c < 336 && r < 324 then
    match tileAt (512 * c + r) with
    | some t => if (s.region (regionOf t)).inService && (s.tile t).inService then some ⟨tileKey t, some t, false⟩ else none
    | none => none
  else none

/-- Bytes of a space; none for a reserved one (Table 15.17). -/
def twnSize (space : Nat) : Option Nat :=
  match space with
  | 0 => some 0x100
  | 1 => some 0x800000
  | 2 => some 0x60000
  | 3 => some 0x100
  | 4 => some 0x100000
  | _ => none

/-- READ's address and length lie in the space and are multiples of 32 (Table 15.16). -/
def twnArgs (space addr len : Nat) : Bool :=
  match twnSize space with
  | some n => addr % 32 == 0 && len % 32 == 0 && decide (32 ≤ len) && decide (len ≤ 256) && decide (addr + len ≤ n)
  | none => false

/-- Every window but the physical function's reaches the frames of its partitions only (Table 15.17). -/
def twnPermitted (s : State) (w space : Nat) (T : Tile) : Bool :=
  w == 0 || (space == 0 && match T.part with
    | some p => (s.vif w).partMask.getLsbD p.val
    | none => false)

/-- The partition of a tile is quiesced, or it has none (Table 15.4). -/
def tileQuiesced (s : State) (T : Tile) : Bool :=
  match T.part with
  | some p => partQuiesced s p.val
  | none => true

/-! ### Contents -/

/-- TILE_ID (Table 2.12); zero for a spare tile. -/
def frameId (x : Reached) (T : Tile) : Word :=
  match x.place with
  | none => 0
  | some t => tileIdWord t T

/-- TILE_STAT (Table 2.13). -/
def frameStat (s : State) (x : Reached) (T : Tile) : Word :=
  let isFrozen := match T.part with
    | some p => (s.part p.val).frozen
    | none => false
  pack [(24, 8, T.sb.length), (15, 1, bit (serialGt T.maxIn T.late || isFrozen)), (14, 1, bit T.holdOut), (13, 1, bit T.sleeping),
        (12, 1, bit T.halted), (11, 1, bit T.refreshing), (8, 3, T.owed), (0, 1, bit (x.place.isSome && T.inService))]

/-- A word of the tile frame (Tables 2.11, 3.14, 4.7, 6.7, 7.17, R195). -/
def frameWord (s : State) (x : Reached) (T : Tile) (off : Nat) : Word :=
  match off with
  | 0x000 => frameId x T
  | 0x004 => frameStat s x T
  | 0x008 => pack [(4, 4, T.deferMax)]
  | 0x048 => T.faultInfo
  | 0x06C => T.late
  | 0x0CC => T.firstSlip
  | _ => if off < 0x0E4 then T.counter off else 0

/-- A range register as TWN shows it: its 64-bit image (Table 2.6). -/
def rangeWord (r : Range) : DWord :=
  BitVec.ofNat 64 (r.space.toNat * 2 ^ 62 + r.len.toNat * 2 ^ 32 + r.base.toNat)

/-- The bytes of a space from an address. -/
def twnBytes (s : State) (x : Reached) (T : Tile) (space addr len : Nat) : List Byte :=
  match space with
  | 0 => ((List.range 64).flatMap fun i => bytesLE 4 (frameWord s x T (4 * i)).toNat).drop addr |>.take len
  | 1 => T.column.read addr len
  | 2 => T.pad.read addr len
  | 3 => ((List.range 32).flatMap fun i => bytesLE 4 (T.sreg i).toNat) ++
         ((List.range 16).flatMap fun i => bytesLE 8 (rangeWord (T.areg i)).toNat) |>.drop addr |>.take len
  | _ => T.side.read addr len

/-- The command of a window ends with a status. -/
def endTwn (s : State) (w : Nat) (status : Byte) : State :=
  s.setTwn w { s.twnOf w with busy := false, status := status }

/-- Data with its 32-bit words found uncorrectable as zero; only the columns, their side fields and the scratchpads hold code words (R33,
R44, Table 15.16). -/
def twnSpoilt (space : Nat) (bad : List (Fin 64)) (bs : List Byte) : List Byte :=
  if space = 1 || space = 2 || space = 4 then
    ((List.range bs.length).zip bs).map fun ib => if bad.any fun k => k.val == ib.1 / 4 then 0 else ib.2
  else bs
/-- Whether a word of `len` bytes of a space is among those. -/
def twnBad (space len : Nat) (bad : List (Fin 64)) : Bool :=
  (space = 1 || space = 2 || space = 4) && bad.any fun k => decide (4 * k.val < len)

/-- READ: the arguments, the permission, the reach and the partition are judged in this order (log entry 45); a quarantined
partition's tiles read zero, and an uncorrectable word does. -/
def execRead (q : ReadReq) (s : State) : Out :=
  let w := q.win
  if !pageShown s w.val pageTwn then .next s
  else
    let x := s.twnOf w.val
    let space := (x.sel.extractLsb' 28 3).toNat
    if !twnArgs space x.addr.toNat x.len.toNat then .next (endTwn s w.val 1)
    else if w.val != 0 && space != 0 then .next (endTwn s w.val 2)
    else match twnReach s x.sel with
      | none => .next (endTwn s w.val 3)
      | some R =>
        let T := FMap.get Tile.reset s.tiles R.key
        if !twnPermitted s w.val space T then .next (endTwn s w.val 2)
        else if R.lost && space != 1 && space != 4 then .next (endTwn s w.val 3)
        else if space = 3 && !tileQuiesced s T then .next (endTwn s w.val 4)
        else
          let wiped := match T.part with
            | some p => (s.part p.val).quarantine
            | none => false
          let n := x.len.toNat
          let bs := if wiped then List.replicate n 0 else twnSpoilt space q.bad (twnBytes s R T space x.addr.toNat n)
          let status := if !wiped && twnBad space n q.bad then 5 else 0
          .next (s.setTwn w.val { x with busy := false, status := status, data := bs })

/-! ### WRITE_CTRL -/

/-- TILE_CTRL.ctr_clear clears the tile's counters, FIRST_SLIP among them; LATENESS and FAULT_INFO stay (R62, R124, R223). -/
def clearTile (T : Tile) : Tile := { T with ctr := [], firstSlip := 0 }

/-- WRITE_CTRL: ctr_clear acts at once; refresh_defer_max changes only while the partition is quiesced, else the write is recorded as
CFG_WHILE_RUN (R63, Table 2.14). -/
def execWriteCtrl (w : WinId) (s : State) : Out :=
  if !pageShown s w.val pageTwn then .next s
  else
    let x := s.twnOf w.val
    match twnReach s x.sel with
    | none => .next (endTwn s w.val 3)
    | some R =>
      let T := FMap.get Tile.reset s.tiles R.key
      if !twnPermitted s w.val 0 T then .next (endTwn s w.val 2)
      else if R.lost then .next (endTwn s w.val 3)
      else
        let d := min 4 (x.dataIn.extractLsb' 4 4).toNat
        let T1 := if x.dataIn.getLsbD 31 then clearTile T else T
        let free := d == T.deferMax || tileQuiesced s T
        let T2 := if free then { T1 with deferMax := d } else T1
        let s1 := { s with tiles := FMap.set Tile.reset s.tiles R.key T2 }
        .next (if free then endTwn s1 w.val 0 else rejectWrite (endTwn s1 w.val 4) w.val pageTwn 0x48 1)

end Sys2Proof.Machine
end

