-- ==== Sys2Proof/Machine/Dispatch.lean ====
section
/-! DEFINITION. The command table of the machine: one arm per constructor, in the order of spec/opcode_table.json. -/
namespace Sys2Proof.Machine

open Sys2Proof

/-- The effect of a command on everything but the queue of waiting commands. -/
def exec (i : Instr) (s : State) : Host.Outcome State Fault Refusal :=
  match i with
  | .nop t f => Sys2Proof.Machine.execNop t f s
  | .jmp t f => Sys2Proof.Machine.execJmp t f s
  | .brc t f => Sys2Proof.Machine.execBrc t f s
  | .call t f => Sys2Proof.Machine.execCall t f s
  | .ret t f => Sys2Proof.Machine.execRet t f s
  | .loop t f => Sys2Proof.Machine.execLoop t f s
  | .halt t f => Sys2Proof.Machine.execHalt t f s
  | .stepwait t f => Sys2Proof.Machine.execStepwait t f s
  | .sets t f => Sys2Proof.Machine.execSets t f s
  | .adds t f => Sys2Proof.Machine.execAdds t f s
  | .subs t f => Sys2Proof.Machine.execSubs t f s
  | .ands t f => Sys2Proof.Machine.execAnds t f s
  | .ors t f => Sys2Proof.Machine.execOrs t f s
  | .shls t f => Sys2Proof.Machine.execShls t f s
  | .cmps t f => Sys2Proof.Machine.execCmps t f s
  | .movs t f => Sys2Proof.Machine.execMovs t f s
  | .ldc t f => Sys2Proof.Machine.execLdc t f s
  | .stc t f => Sys2Proof.Machine.execStc t f s
  | .waita t f => Sys2Proof.Machine.execWaita t f s
  | .clra t f => Sys2Proof.Machine.execClra t f s
  | .wake t f => Sys2Proof.Machine.execWake t f s
  | .sleep t f => Sys2Proof.Machine.execSleep t f s
  | .spin t f => Sys2Proof.Machine.execSpin t f s
  | .bara t f => Sys2Proof.Machine.execBara t f s
  | .barw t f => Sys2Proof.Machine.execBarw t f s
  | .holdreq t f => Sys2Proof.Machine.execHoldreq t f s
  | .fence t f => Sys2Proof.Machine.execFence t f s
  | .dload t f => Sys2Proof.Machine.execDload t f s
  | .dstore t f => Sys2Proof.Machine.execDstore t f s
  | .dlatch t f => Sys2Proof.Machine.execDlatch t f s
  | .send t f => Sys2Proof.Machine.execSend t f s
  | .win t f => Sys2Proof.Machine.execWin t f s
  | .cred t f => Sys2Proof.Machine.execCred t f s
  | .copy t f => Sys2Proof.Machine.execCopy t f s
  | .desc t f => Sys2Proof.Machine.execDesc t f s
  | .take t f => Sys2Proof.Machine.execTake t f s
  | .plat t f => Sys2Proof.Machine.execPlat t f s
  | .flushp t f => Sys2Proof.Machine.execFlushp t f s
  | .matv t f => Sys2Proof.Machine.execMatv t f s
  | .matm t f => Sys2Proof.Machine.execMatm t f s
  | .accz t f => Sys2Proof.Machine.execAccz t f s
  | .accout t f => Sys2Proof.Machine.execAccout t f s
  | .kdot t f => Sys2Proof.Machine.execKdot t f s
  | .vacc t f => Sys2Proof.Machine.execVacc t f s
  | .adapt t f => Sys2Proof.Machine.execAdapt t f s
  | .qact t f => Sys2Proof.Machine.execQact t f s
  | .cvt t f => Sys2Proof.Machine.execCvt t f s
  | .vadd t f => Sys2Proof.Machine.execVadd t f s
  | .vsub t f => Sys2Proof.Machine.execVsub t f s
  | .vmul t f => Sys2Proof.Machine.execVmul t f s
  | .vfma t f => Sys2Proof.Machine.execVfma t f s
  | .vmax t f => Sys2Proof.Machine.execVmax t f s
  | .vsel t f => Sys2Proof.Machine.execVsel t f s
  | .vexp t f => Sys2Proof.Machine.execVexp t f s
  | .vrcp t f => Sys2Proof.Machine.execVrcp t f s
  | .vrsq t f => Sys2Proof.Machine.execVrsq t f s
  | .vsumx t f => Sys2Proof.Machine.execVsumx t f s
  | .smax t f => Sys2Proof.Machine.execSmax t f s
  | .topk t f => Sys2Proof.Machine.execTopk t f s
  | .sample t f => Sys2Proof.Machine.execSample t f s
  | .issueDue t => Sys2Proof.Machine.execIssueDue t s
  | .columnReadLine v low => Sys2Proof.Machine.execColumnReadLine v low s
  | .readRetry t r => Sys2Proof.Machine.execReadRetry t r s
  | .columnWriteLine v => Sys2Proof.Machine.execColumnWriteLine v s
  | .forcedGrant t bank => Sys2Proof.Machine.execForcedGrant t bank s
  | .refreshDue c => Sys2Proof.Machine.execRefreshDue c s
  | .refreshRepay c => Sys2Proof.Machine.execRefreshRepay c s
  | .refreshBurstDone c => Sys2Proof.Machine.execRefreshBurstDone c s
  | .rowEngineLine v => Sys2Proof.Machine.execRowEngineLine v s
  | .vectorGroupDone v => Sys2Proof.Machine.execVectorGroupDone v s
  | .sendInject v => Sys2Proof.Machine.execSendInject v s
  | .mgmtInject t => Sys2Proof.Machine.execMgmtInject t s
  | .flitHop t out => Sys2Proof.Machine.execFlitHop t out s
  | .sendHeadArrival t c => Sys2Proof.Machine.execSendHeadArrival t c s
  | .payloadDelivery v c => Sys2Proof.Machine.execPayloadDelivery v c s
  | .creditDelivery t => Sys2Proof.Machine.execCreditDelivery t s
  | .wakeDelivery t => Sys2Proof.Machine.execWakeDelivery t s
  | .stepNoticeDelivery t => Sys2Proof.Machine.execStepNoticeDelivery t s
  | .descriptorDelivery t c => Sys2Proof.Machine.execDescriptorDelivery t c s
  | .outboundSend p => Sys2Proof.Machine.execOutboundSend p s
  | .holdRootMaximum p t l => Sys2Proof.Machine.execHoldRootMaximum p t l s
  | .holdMaxArrival t m => Sys2Proof.Machine.execHoldMaxArrival t m s
  | .holdreqEnd t => Sys2Proof.Machine.execHoldreqEnd t s
  | .barrierRootUpdate p b => Sys2Proof.Machine.execBarrierRootUpdate p b s
  | .stagerStep r => Sys2Proof.Machine.execStagerStep r s
  | .sleepLimitExpire t => Sys2Proof.Machine.execSleepLimitExpire t s
  | .partitionStartArrival t => Sys2Proof.Machine.execPartitionStartArrival t s
  | .stepBoundary p => Sys2Proof.Machine.execStepBoundary p s
  | .idleBoundary p => Sys2Proof.Machine.execIdleBoundary p s
  | .manifestSend p => Sys2Proof.Machine.execManifestSend p s
  | .stepCredit p => Sys2Proof.Machine.execStepCredit p s
  | .retireCredit p => Sys2Proof.Machine.execRetireCredit p s
  | .tokenNotice p => Sys2Proof.Machine.execTokenNotice p s
  | .streamRecordWrite r => Sys2Proof.Machine.execStreamRecordWrite r s
  | .pageFullNotice p => Sys2Proof.Machine.execPageFullNotice p s
  | .tableWriteAck p => Sys2Proof.Machine.execTableWriteAck p s
  | .promptCopyDone r ok toks => Sys2Proof.Machine.execPromptCopyDone r ok toks s
  | .deadlineMiss r => Sys2Proof.Machine.execDeadlineMiss r s
  | .rowOverdue r => Sys2Proof.Machine.execRowOverdue r s
  | .rowClaim w r gen => Sys2Proof.Machine.execRowClaim w r gen s
  | .rowReleaseUnsubmitted w r gen => Sys2Proof.Machine.execRowReleaseUnsubmitted w r gen s
  | .rowCommit w r gen => Sys2Proof.Machine.execRowCommit w r gen s
  | .rowWithdraw w r gen => Sys2Proof.Machine.execRowWithdraw w r gen s
  | .rowCancel w r gen => Sys2Proof.Machine.execRowCancel w r gen s
  | .rowRelease w r gen => Sys2Proof.Machine.execRowRelease w r gen s
  | .specReq p m => Sys2Proof.Machine.execSpecReq p m s
  | .specProp p m => Sys2Proof.Machine.execSpecProp p m s
  | .specEnd p m => Sys2Proof.Machine.execSpecEnd p m s
  | .specTimeout r => Sys2Proof.Machine.execSpecTimeout r s
  | .streamEnable w k v => Sys2Proof.Machine.execStreamEnable w k v s
  | .create w => Sys2Proof.Machine.execCreate w s
  | .retire w => Sys2Proof.Machine.execRetire w s
  | .park w => Sys2Proof.Machine.execPark w s
  | .kvRecall w => Sys2Proof.Machine.execKvRecall w s
  | .shipMessageRx p m => Sys2Proof.Machine.execShipMessageRx p m s
  | .shipAckRx p a => Sys2Proof.Machine.execShipAckRx p a s
  | .shipRetry p j => Sys2Proof.Machine.execShipRetry p j s
  | .loadImage w img => Sys2Proof.Machine.execLoadImage w img s
  | .loadGen w m => Sys2Proof.Machine.execLoadGen w m s
  | .loadAdapter w m => Sys2Proof.Machine.execLoadAdapter w m s
  | .retireAdapter w => Sys2Proof.Machine.execRetireAdapter w s
  | .abort w => Sys2Proof.Machine.execAbort w s
  | .shardReceived w j bytes => Sys2Proof.Machine.execShardReceived w j bytes s
  | .shardHashed w j k => Sys2Proof.Machine.execShardHashed w j k s
  | .shardStall w j => Sys2Proof.Machine.execShardStall w j s
  | .badgerVisit p slot copy shard k m => Sys2Proof.Machine.execBadgerVisit p slot copy shard k m s
  | .scrubRepair p => Sys2Proof.Machine.execScrubRepair p s
  | .scrubLogWrite => Sys2Proof.Machine.execScrubLogWrite s
  | .slotOpen n => Sys2Proof.Machine.execSlotOpen n s
  | .linkCellRx n frame slot idx raw spoiled fec => Sys2Proof.Machine.execLinkCellRx n frame slot idx raw spoiled fec s
  | .nakRx n frame slot idx => Sys2Proof.Machine.execNakRx n frame slot idx s
  | .timeCellRx n m => Sys2Proof.Machine.execTimeCellRx n m s
  | .thruExpire n => Sys2Proof.Machine.execThruExpire n s
  | .slotTableSwap n => Sys2Proof.Machine.execSlotTableSwap n s
  | .linkTrained n peerHall peerPort => Sys2Proof.Machine.execLinkTrained n peerHall peerPort s
  | .linkLockLost n lane => Sys2Proof.Machine.execLinkLockLost n lane s
  | .linkSignalLost n => Sys2Proof.Machine.execLinkSignalLost n s
  | .retrain w n => Sys2Proof.Machine.execRetrain w n s
  | .slotDataWrite w n v => Sys2Proof.Machine.execSlotDataWrite w n v s
  | .hallEpochEdge => Sys2Proof.Machine.execHallEpochEdge s
  | .hallRefLock => Sys2Proof.Machine.execHallRefLock s
  | .hallRefLost => Sys2Proof.Machine.execHallRefLost s
  | .holdoverExpire => Sys2Proof.Machine.execHoldoverExpire s
  | .hostDown why => Sys2Proof.Machine.execHostDown why s
  | .perstRelease speed width flit => Sys2Proof.Machine.execPerstRelease speed width flit s
  | .busMasterEnable w => Sys2Proof.Machine.execBusMasterEnable w s
  | .functionLevelReset w => Sys2Proof.Machine.execFunctionLevelReset w s
  | .errorEvent e => Sys2Proof.Machine.execErrorEvent e s
  | .recoveryStart => Sys2Proof.Machine.execRecoveryStart s
  | .purgeEnd p => Sys2Proof.Machine.execPurgeEnd p s
  | .restart w p => Sys2Proof.Machine.execRestart w p s
  | .fuseTrip r => Sys2Proof.Machine.execFuseTrip r s
  | .clockFeedStop r => Sys2Proof.Machine.execClockFeedStop r s
  | .sufinReset => Sys2Proof.Machine.execSufinReset s
  | .signalBoxReset => Sys2Proof.Machine.execSignalBoxReset s
  | .roundhouseReset => Sys2Proof.Machine.execRoundhouseReset s
  | .stackOut k parked => Sys2Proof.Machine.execStackOut k parked s
  | .governorTick g => Sys2Proof.Machine.execGovernorTick g s
  | .fastLimit watts => Sys2Proof.Machine.execFastLimit watts s
  | .dutyWindow first => Sys2Proof.Machine.execDutyWindow first s
  | .capRecompute => Sys2Proof.Machine.execCapRecompute s
  | .busbarLost busB => Sys2Proof.Machine.execBusbarLost busB s
  | .busbarVoltageFault v => Sys2Proof.Machine.execBusbarVoltageFault v s
  | .wearUpdate ts => Sys2Proof.Machine.execWearUpdate ts s
  | .sampleInEdge rising => Sys2Proof.Machine.execSampleInEdge rising s
  | .scanTimer => Sys2Proof.Machine.execScanTimer s
  | .force w v => Sys2Proof.Machine.execForce w v s
  | .conversionDone code => Sys2Proof.Machine.execConversionDone code s
  | .coldBringup bootAlt calSigOk => Sys2Proof.Machine.execColdBringup bootAlt calSigOk s
  | .moduleReset => Sys2Proof.Machine.execModuleReset s
  | .ringTest ring fails => Sys2Proof.Machine.execRingTest ring fails s
  | .bringupDone => Sys2Proof.Machine.execBringupDone s
  | .warm w => Sys2Proof.Machine.execWarm w s
  | .warmDone fails => Sys2Proof.Machine.execWarmDone fails s
  | .clearField w => Sys2Proof.Machine.execClearField w s
  | .enrol w c => Sys2Proof.Machine.execEnrol w c s
  | .revoke w c => Sys2Proof.Machine.execRevoke w c s
  | .release w c => Sys2Proof.Machine.execRelease w c s
  | .attest w => Sys2Proof.Machine.execAttest w s
  | .fwWrite w fw => Sys2Proof.Machine.execFwWrite w fw s
  | .certRead w => Sys2Proof.Machine.execCertRead w s
  | .save w => Sys2Proof.Machine.execSave w s
  | .restore w => Sys2Proof.Machine.execRestore w s
  | .calUserWrite w v => Sys2Proof.Machine.execCalUserWrite w v s
  | .read w => Sys2Proof.Machine.execRead w s
  | .writeCtrl w => Sys2Proof.Machine.execWriteCtrl w s
  | .ctrClear w page => Sys2Proof.Machine.execCtrClear w page s
  | .errClear w page => Sys2Proof.Machine.execErrClear w page s
  | .cfgApply w page => Sys2Proof.Machine.execCfgApply w page s
  | .evtForce w page v => Sys2Proof.Machine.execEvtForce w page v s
  | .evtStatClear w page v => Sys2Proof.Machine.execEvtStatClear w page v s
  | .rwsShadowWrite w off v => Sys2Proof.Machine.execRwsShadowWrite w off v s
  | .registerWrite w off wide v be => Sys2Proof.Machine.execRegisterWrite w off wide v be s
  | .lowWordReadCapture w r => Sys2Proof.Machine.execLowWordReadCapture w r s
  | .fltRecordRead w r => Sys2Proof.Machine.execFltRecordRead w r s
  | .streamHoldoffExpire w k => Sys2Proof.Machine.execStreamHoldoffExpire w k s
  | .quarantineEnd p bad => Sys2Proof.Machine.execQuarantineEnd p bad s
  | .loadChecksDone w => Sys2Proof.Machine.execLoadChecksDone w s
  | .peerLeavesElectricalIdle n => Sys2Proof.Machine.execPeerLeavesElectricalIdle n s
  | .hostLinkActive speed width flit => Sys2Proof.Machine.execHostLinkActive speed width flit s
  | .busbarRestored busB => Sys2Proof.Machine.execBusbarRestored busB s
  | .shardReadError w j => Sys2Proof.Machine.execShardReadError w j s
  | .sequencerAccessDone v => Sys2Proof.Machine.execSequencerAccessDone v s
  | .sufinReturn => Sys2Proof.Machine.execSufinReturn s
  | .vectorUnmask fn vec => Sys2Proof.Machine.execVectorUnmask fn vec s

end Sys2Proof.Machine
end

