-- ==== Sys2Proof/Machine/Step.lean ====
section
/-! DEFINITION. One step: the command at the front of the queue; with none waiting, one clk passes. -/
namespace Sys2Proof.Machine

/-- `s` with the command that a word spells put in front; the table gives no row bits, so no word spells one (log entry 1). -/
def State.withFetchWord (s : State) (nbits w : Nat) : State :=
  match decodeTableWord nbits w with
  | some i => { s with pending := i :: s.pending }
  | none => s

/-- Takes the command in front and runs it on the queue's rest; on an empty queue one clk passes (log entry 3). -/
def step (s : State) : Host.Outcome State Fault Refusal :=
  match s.pending with
  | [] => .next (Sys2Proof.Machine.tick s)
  | i :: rest => Sys2Proof.Machine.exec i { s with pending := rest }

end Sys2Proof.Machine
end

