-- ==== Sys2Proof/Safety.lean ====
section
/-! DEFINITION. What counts as a safe run, and the terms in which claims are stated: what a command leaves, when an instruction
passes the check stage, what an issue does, and the canonical form of the module's memories. -/
namespace Sys2Proof.Machine

/-- A step went on: neither a fault nor a refusal. -/
def goesOn (o : Host.Outcome State Fault Refusal) : Prop := ∃ s, o = .next s

/-! ### What a command leaves -/

/-- Two states differ at most in tile `t`. -/
def OnlyTile (t : TileAddr) (s u : State) : Prop :=
  u = { s with tiles := u.tiles } ∧ ∀ v, v ≠ t → u.tile v = s.tile v

/-- Two states differ at most in tiles. -/
def OnlyTiles (s u : State) : Prop := u = { s with tiles := u.tiles }

/-- Two states differ at most in partition `p`. -/
def OnlyPart (p : Nat) (s u : State) : Prop :=
  u = { s with parts := u.parts } ∧ ∀ q, q ≠ p → u.part q = s.part q

/-- Every row but `r` is as it was. -/
def OtherRows (r : Nat) (s u : State) : Prop := ∀ q, q ≠ r → u.row q = s.row q
/-- Every partition but `p` is as it was. -/
def OtherParts (p : Nat) (s u : State) : Prop := ∀ q, q ≠ p → u.part q = s.part q
/-- Every port but `n` is as it was. -/
def OtherPorts (n : Nat) (s u : State) : Prop := ∀ q, q ≠ n → u.port q = s.port q
/-- Two states differ at most in row `r`. -/
def OnlyRow (r : Nat) (s u : State) : Prop := u = { s with rows := u.rows } ∧ OtherRows r s u
/-- Two states differ at most in port `n`. -/
def OnlyPort (n : Nat) (s u : State) : Prop := u = { s with ports := u.ports } ∧ OtherPorts n s u
/-- Partition `p` has counted `n` at `off`, and no partition has changed otherwise. -/
def Counted (p off n : Nat) (s u : State) : Prop := ∀ q, u.part q = if q = p then (s.part q).count off n else s.part q

/-! ### Events -/

/-- One event: its EVT_STAT bit in one window's view of a page. -/
def evt (w page bit : Nat) : Nat → Nat → Word := fun v q => if v = w ∧ q = page then BitVec.ofNat 32 (2 ^ bit) else 0
/-- One event in every window that shows the page (R483). -/
def evtAll (s : State) (page bit : Nat) : Nat → Nat → Word :=
  fun v q => if q = page ∧ v < 128 ∧ pageShown s v page = true then BitVec.ofNat 32 (2 ^ bit) else 0
/-- Two sets of events. -/
def evts (a b : Nat → Nat → Word) : Nat → Nat → Word := fun v q => a v q ||| b v q
/-- The page headers have gained the events `m` in EVT_STAT and are as they were otherwise. -/
def Events (s u : State) (m : Nat → Nat → Word) : Prop :=
  ∀ v q, q < 65536 → u.header v q = { s.header v q with evtStat := (s.header v q).evtStat ||| m v q }

/-- Two tiles read the same at every byte of the scratchpad outside the `n` bytes at `a`. -/
def PadOutside (a n : Nat) (T T' : Tile) : Prop := ∀ k, ¬ (a ≤ k ∧ k < a + n) → T'.pad.get k = T.pad.get k

/-! ### The check stage and the issue -/

/-- The word waits at the check stage of `t`, passes every check there, and is not followed off the end of the instruction store
(R113–R115, R118, R199). -/
abbrev Runs (s : State) (t : TileAddr) (w : DWord) (p : IssueSpec) : Prop :=
  atCheck s t w = true ∧ verdict (s.tile t) w p = .issue ∧ (nextPc (s.tile t) p).2.isSome = true

/-- `T'` is `B` after the issue from `T`: the next pc and loop stack (R113, R126, R127), the next entry's identity, no waiting
cause, in exact mode the next due value (R236), and among the counters SB_PEAK alone. -/
def Moved (p : IssueSpec) (T B T' : Tile) : Prop :=
  T' = { B with pc := (nextPc T p).2.getD T.pc, loops := (nextPc T p).1, nextId := T.nextId + 1, wait := .none,
                slip := false, due := T'.due, ctr := T'.ctr } ∧
  ∀ off, off ≠ ctrSbPeak → T'.counter off = B.counter off

/-- `T` with the scoreboard entry that an instruction of class `c` takes at its issue (R49). -/
def Tile.withEntry (T : Tile) (p : IssueSpec) (c : SbClass) : Tile :=
  { T with sb := T.sb ++ [{ id := T.nextId, cls := c, reads := p.reads, writes := p.writes,
                            rdLatch := p.rdLatch, wrLatch := p.wrLatch, brief := p.brief }] }

/-- `T` after a row-engine instruction entered its queue, with the column lines it reads. -/
def rowEntered (T : Tile) (p : IssueSpec) (o : AOp) : Tile :=
  { T.withEntry p .arith with
    rowQ := T.rowQ ++ [o]
    readQ := if o.lines = [] then T.readQ else T.readQ ++ [{ id := T.nextId, lines := o.lines, use := .rowEngine }] }

/-- `T` after a vector instruction of opcode `op` entered its queue with its operands copied (R116) and `n` groups to do. -/
def vecEntered (T : Tile) (p : IssueSpec) (c : SbClass) (op : Nat) (f : FmtA) (n : Nat) : Tile :=
  { T.withEntry p c with vecQ := T.vecQ ++ [vecOp T op f n] }

/-! ### What an accumulator gains -/

/-- One thing that is added to an accumulator: what a row of the row engine contributes, a value of the exact-sum path in the format of `p`
fraction bits, or a raw image (R79, R175). -/
inductive AccStep where
  | row (c : Contribs)
  | value (p : Nat) (v : Fl)
  | image (bs : List Byte)
  deriving DecidableEq, Repr

/-- The accumulator after one of them. -/
def AccStep.addTo (a : Acc) : AccStep → Acc
  | .row c => (a.addAll c).1
  | .value p v => (a.addValue p v).1
  | .image bs => (a.addImage bs).1

/-! ### Canonical form -/

/-- A tile's scratchpad, column data and side fields are in canonical form. -/
abbrev Tile.memWf (T : Tile) : Prop := T.pad.wf = true ∧ T.column.wf = true ∧ T.side.wf = true

/-- Every memory of the module is in canonical form, and the table of tiles too, so that equal memories are equal data. -/
def MemWf (s : State) : Prop := FMap.wf Tile.reset s.tiles = true ∧ ∀ kv ∈ s.tiles, kv.2.memWf

end Sys2Proof.Machine
end

