-- ==== Sys2Proof/Certificates/Slice0/Obligations.lean ====
section
/-! DEFINITION. The statements about the model: what each command does and leaves, rule by rule of the spec. -/

open Sys2Proof Sys2Proof.Machine

/-! ### One step (tier 1) -/

/-- `step` runs the command in front on the queue's rest; on an empty queue it is one clk, `tick` (log entry 3). -/
def Obligations.StepRunsTheFrontCommand : Prop :=
  (∀ (s : State) (c : Instr) (rest : List Instr),
    s.pending = c :: rest → step s = exec c { s with pending := rest }) ∧
  (∀ s : State, s.pending = [] → step s = .next (tick s))

/-- One clk with no command waiting (log entry 3): queue and every other table stand; of a row only its wait and what tells it overdue may
change (R272); hall time grows by 3,276,800 / 47 units of 2^−16 ns, counted in 47,000,000ths, and by what the clk takes from a correction
that is due: never backward, at most 1 ns per ms; every region in service counts one clk; a tile of a partition that does not run
stands, unless its stager transition ends. While the clocks are stopped, after a shutdown or in a warm restart, tiles and regions stand
(R446, R464).
What it says of choices of the model follows the log: entries 3, 71. -/
def Obligations.IdleClkCountsTime : Prop :=
  ∀ s : State, s.pending = [] → ∃ u, step s = .next u ∧
    u = { s with tiles := u.tiles, regions := u.regions, parts := u.parts, hall := u.hall, rows := u.rows } ∧
    (∀ r, u.row r = { s.row r with since := (u.row r).since, overdue := (u.row r).overdue }) ∧
    (s.clocksStopped = true → u.tiles = s.tiles ∧ u.regions = s.regions) ∧
    47000000 * (u.hall.now : Int) + u.hall.rem + u.hall.slew =
      47000000 * (s.hall.now : Int) + s.hall.rem + s.hall.slew + 3276800000000 ∧
    s.hall.now ≤ u.hall.now ∧ (s.hall.slew = 0 → u.hall.slew = 0) ∧
    u.hall.slew.natAbs ≤ s.hall.slew.natAbs ∧ (s.hall.slew - u.hall.slew).natAbs ≤ 3276800 ∧
    (∀ r, s.clocksStopped = false → (s.region r).inService = true → (u.region r).refresh = (s.region r).refresh + 1) ∧
    (∀ r, (s.region r).inService = false → u.region r = s.region r) ∧
    (∀ p, (u.part p).spacing = (s.part p).spacing - 1) ∧
    (FMap.wf Tile.reset s.tiles = true → ∀ t, (∀ p, (s.tile t).part = some p → (s.part p.val).running = false) →
      (∀ r, (s.region r).gap = 1 → t ∉ (s.region r).exits ∧ t ∉ (s.region r).entries) → u.tile t = s.tile t)

/-! ### The check stage: every tile instruction -/

/-- An instruction command whose word does not wait at the check stage of its tile, or whose tile may not act, changes nothing (the
reading of log entry 12). A stall there changes the tile's waiting cause and nothing else (R114, R199). A failed check halts the
tile, fills FAULT_INFO with the code, the detail and the index if it was empty, queues one fault report to the rim, and changes
nothing else (R114, R122, R124). The order of the checks: pending scalars first, then ILLEGAL_OP, then the instruction's own faults,
then the stalls, and only an instruction that meets none of them issues (R114, R118, R199). -/
def Obligations.TheCheckStage : Prop :=
  ((∀ (i : Instr) (s : State) (t : TileAddr) (w : DWord), i.tileWord = some (t, w) → atCheck s t w = false →
    (ready s t = false ∨ (decodeWord t ((s.tile t).wordAt (s.tile t).pc)).isSome = true) → exec i s = .next s) ∧
  (∀ (i : Instr) (s : State) (t : TileAddr) (w : DWord) (r : Wait), i.tileWord = some (t, w) → atCheck s t w = true →
    verdict (s.tile t) w (specOf s t i) = .stall r →
    exec i s = .next (s.mapTile t fun T => { T with wait := r })) ∧
  (∀ (i : Instr) (s : State) (t : TileAddr) (w : DWord) (c d : Nat), i.tileWord = some (t, w) → atCheck s t w = true →
    verdict (s.tile t) w (specOf s t i) = .fault c d →
    ∃ u, exec i s = .next u ∧ OnlyTile t s u ∧
      u.tile t = { s.tile t with
        halted := true, wait := .none
        faultInfo := if (s.tile t).faultInfo = 0 then faultWord c d false (s.tile t).pc else (s.tile t).faultInfo
        mgmtQ := (s.tile t).mgmtQ ++ [{ src := .tile t, dst := (s.partOf t).gate, rim := true,
                                         body := .fault (faultWord c d false (s.tile t).pc) }] })) ∧
  (∀ (T : Tile) (w : DWord) (p : IssueSpec),
    ((∃ n ∈ p.needs, n ∈ T.pend) → verdict T w p = .stall .scalar) ∧
    ((∀ n ∈ p.needs, n ∉ T.pend) →
      (wordLegal w = false → verdict T w p = .fault codeIllegal 0) ∧
      (wordLegal w = true → ∀ c d, p.fault = some (c, d) → verdict T w p = .fault c d) ∧
      (wordLegal w = true → p.fault = none →
        (verdict T w p = .issue ↔
          rangeStall T p = false ∧ fillStall T p = false ∧ p.own = .none ∧ ¬ (p.entry.isSome = true ∧ 24 ≤ T.sb.length)))))

/-- A range stalls an instruction exactly when it reads a unit that an operation in flight writes, or writes a unit that one reads
or writes; the latch counts as one further unit (R50, R117): DLATCH, a MATM without .LT, KDOT and VACC write it, MATM.LT reads it, MATV
and ADAPT do neither. Two ranges overlap exactly when some unit of one space lies in both. -/
def Obligations.RangeStallMeansOverlap : Prop :=
  (∀ (T : Tile) (p : IssueSpec), rangeStall T p = true ↔
    (∃ r ∈ p.reads, ∃ q ∈ T.busyWrites, r.overlaps q = true) ∨
    (∃ r ∈ p.writes, ∃ q ∈ T.busyWrites, r.overlaps q = true) ∨
    (∃ r ∈ p.writes, ∃ q ∈ T.busyReads, r.overlaps q = true) ∨
    (p.rdLatch = true ∧ ∃ e ∈ T.sb, e.wrLatch = true) ∨
    (p.wrLatch = true ∧ ∃ e ∈ T.sb, e.wrLatch = true ∨ e.rdLatch = true)) ∧
  (∀ r q : Range, r.overlaps q = true ↔
    r.space = q.space ∧ ∃ n, (r.lo ≤ n ∧ n < r.lo + r.n) ∧ (q.lo ≤ n ∧ n < q.lo + q.n)) ∧
  (∀ (T : Tile) (f : FmtA), let latch := fun (p : IssueSpec) => (p.rdLatch, p.wrLatch)
    latch (specDlatch T f) = (false, true) ∧ latch (specMat T f false) = (false, false) ∧
    latch (specMat T f true) = (f.sfx.getLsbD 3, !f.sfx.getLsbD 3) ∧
    latch (specKdot T f) = (false, true) ∧ latch (specVacc T f) = (false, true) ∧ latch (specAdapt T f) = (false, false))

/-- The next index: a taken branch goes to its target; else a loop level that ends here and has passes left goes back to its start;
else the next index, and none after 2,047 (R113, R125, R127). An instruction at index 2,047 that is followed in sequence does its
work and then raises SEQ_FAULT: the tile halts, FAULT_INFO holds code 2 and index 2,047 unless it held a fault (R113).
What it says of choices of the model follows the log: entries 16, 106. -/
def Obligations.NextIndex : Prop :=
  (∀ (T : Tile) (p : IssueSpec),
    (∀ tgt, p.branch = some tgt → (nextPc T p).2 = some tgt) ∧
    (p.branch = none → p.push = none → (∀ l ∈ T.loops.head?, l.stop ≠ T.pc) →
      nextPc T p = (T.loops, if T.pc = 2047 then none else some (T.pc + 1))) ∧
    (p.branch = none → p.push = none → ∀ l ls, T.loops = l :: ls → l.stop = T.pc →
      (2 ≤ l.left → nextPc T p = ({ l with left := l.left - 1 } :: ls, some l.start)) ∧
      (l.left ≤ 1 → (∀ k ∈ ls.head?, k.stop ≠ T.pc) →
        nextPc T p = (ls, if T.pc = 2047 then none else some (T.pc + 1))))) ∧
  (∀ (i : Instr) (s : State) (t : TileAddr) (w : DWord), i.tileWord = some (t, w) → atCheck s t w = true →
    verdict (s.tile t) w (specOf s t i) = .issue → (nextPc (s.tile t) (specOf s t i)).2 = none →
    (specOf s t i).stops = false →
    ∃ u, exec i s = .next u ∧ (u.tile t).halted = true ∧
      (u.tile t).faultInfo = (if (s.tile t).faultInfo = 0 then faultWord codeSeq 0 false 2047 else (s.tile t).faultInfo))

/-! ### Control instructions -/

/-- SETS, ADDS, SUBS, ANDS, ORS, SHLS (by src2[4:0]) and CMPS (1 or 0) write their one destination, a scalar (s0 stays 0) or for
SETS.A a range register, and change nothing else but the sequencer's place. MOVS: the eight moves between scalars and range
registers, one destination, nothing else but the sequencer's place. -/
def Obligations.ScalarsAndRegisters : Prop :=
  ((∀ (s : State) (t : TileAddr) (f : FmtC), let T := s.tile t
    (Runs s t (f.word 0x08) {} → f.sfx = 0 →
      ∃ u, exec (.sets t f) s = .next u ∧ OnlyTile t s u ∧ Moved {} T (T.setSreg f.sd.toNat f.imm) (u.tile t)) ∧
    (Runs s t (f.word 0x08) {} → f.sfx = 1 →
      ∃ u, exec (.sets t f) s = .next u ∧ OnlyTile t s u ∧
        Moved {} T (T.setAreg f.sd.toNat { space := f.imm.extractLsb' 30 2, len := f.imm.extractLsb' 16 14,
                                           base := f.imm.extractLsb' 0 14 }) (u.tile t)) ∧
    (Runs s t (f.word 0x09) (specAlu f) →
      ∃ u, exec (.adds t f) s = .next u ∧ OnlyTile t s u ∧
        Moved (specAlu f) T (T.setSreg f.sd.toNat (T.sreg f.sa.toNat + src2 T f)) (u.tile t)) ∧
    (Runs s t (f.word 0x0A) (specAlu f) →
      ∃ u, exec (.subs t f) s = .next u ∧ OnlyTile t s u ∧
        Moved (specAlu f) T (T.setSreg f.sd.toNat (T.sreg f.sa.toNat - src2 T f)) (u.tile t)) ∧
    (Runs s t (f.word 0x0B) (specAlu f) →
      ∃ u, exec (.ands t f) s = .next u ∧ OnlyTile t s u ∧
        Moved (specAlu f) T (T.setSreg f.sd.toNat (T.sreg f.sa.toNat &&& src2 T f)) (u.tile t)) ∧
    (Runs s t (f.word 0x0C) (specAlu f) →
      ∃ u, exec (.ors t f) s = .next u ∧ OnlyTile t s u ∧
        Moved (specAlu f) T (T.setSreg f.sd.toNat (T.sreg f.sa.toNat ||| src2 T f)) (u.tile t))) ∧
  (∀ (s : State) (t : TileAddr) (f : FmtC), let T := s.tile t
    let a := T.sreg f.sa.toNat
    let b := src2 T f
    (Runs s t (f.word 0x0D) (specAlu f) →
      ∃ u, exec (.shls t f) s = .next u ∧ OnlyTile t s u ∧ ∃ v : Word,
        Moved (specAlu f) T (T.setSreg f.sd.toNat v) (u.tile t) ∧
        (f.sfx = 0 → v = a <<< (b.extractLsb' 0 5).toNat) ∧ (f.sfx = 1 → v = a >>> (b.extractLsb' 0 5).toNat) ∧
        (f.sfx = 2 → v = a.sshiftRight (b.extractLsb' 0 5).toNat)) ∧
    (Runs s t (f.word 0x0E) (specAlu f) →
      ∃ u, exec (.cmps t f) s = .next u ∧ OnlyTile t s u ∧ ∃ v : Word,
        Moved (specAlu f) T (T.setSreg f.sd.toNat v) (u.tile t) ∧
        (f.sfx = 0 → v = if a = b then 1 else 0) ∧ (f.sfx = 1 → v = if a ≠ b then 1 else 0) ∧
        (f.sfx = 2 → v = if a.toInt < b.toInt then 1 else 0) ∧ (f.sfx = 3 → v = if b.toInt ≤ a.toInt then 1 else 0) ∧
        (f.sfx = 4 → v = if a.toNat < b.toNat then 1 else 0) ∧ (f.sfx = 5 → v = if b.toNat ≤ a.toNat then 1 else 0)))) ∧
  (∀ (s : State) (t : TileAddr) (f : FmtC), Runs s t (f.word 0x0F) (specMovs f) → let T := s.tile t
    let d := f.sd.toNat
    let v := T.sreg f.sa.toNat
    let r := T.areg f.sa.toNat
    let q := T.areg d
    ∃ u, exec (.movs t f) s = .next u ∧ OnlyTile t s u ∧ ∃ B, Moved (specMovs f) T B (u.tile t) ∧
      (f.sfx = 0 → B = T.setSreg d v) ∧ (f.sfx = 1 → B = T.setAreg d r) ∧
      (f.sfx = 2 → B = T.setSreg d (r.base.setWidth 32)) ∧ (f.sfx = 3 → B = T.setSreg d (r.len.setWidth 32)) ∧
      (f.sfx = 4 → B = T.setAreg d { q with base := v.extractLsb' 0 14 }) ∧
      (f.sfx = 5 → B = T.setAreg d { q with len := v.extractLsb' 0 14 }) ∧
      (f.sfx = 6 → B = T.setAreg d { q with space := v.extractLsb' 0 2 }) ∧
      (f.sfx = 7 → B = T.setAreg d { q with base := (q.base.setWidth 32 + v).extractLsb' 0 14 }))

/-- NOP, JMP, BRC, CALL, RET and LOOP: where control goes, and the return and loop stacks; no register, no memory. BRC's conditions
read s[sa] as a signed word. A taken JMP or BRC ends every innermost loop level whose body holds it and not its target, and no other
(R126).
What it says of choices of the model follows the log: entry 16. -/
def Obligations.ControlFlow : Prop :=
  (∀ (s : State) (t : TileAddr) (f : FmtC), let T := s.tile t
    let tgt : BitVec 11 := f.imm.extractLsb' 0 11
    (Runs s t (f.word 0x00) {} → ∃ u, exec (.nop t f) s = .next u ∧ OnlyTile t s u ∧ Moved {} T T (u.tile t)) ∧
    (Runs s t (f.word 0x01) (specJmp f) →
      ∃ u, exec (.jmp t f) s = .next u ∧ OnlyTile t s u ∧ Moved (specJmp f) T T (u.tile t) ∧ (u.tile t).pc = tgt ∧
        (u.tile t).loops = popOutside T.pc tgt T.loops) ∧
    (Runs s t (f.word 0x02) (specBrc T f) → (brcTaken f.sfx (T.sreg f.sa.toNat) = true) →
      ∃ u, exec (.brc t f) s = .next u ∧ OnlyTile t s u ∧ Moved (specBrc T f) T T (u.tile t) ∧ (u.tile t).pc = tgt ∧
        (u.tile t).loops = popOutside T.pc tgt T.loops) ∧
    (Runs s t (f.word 0x02) (specBrc T f) → (brcTaken f.sfx (T.sreg f.sa.toNat) = false) →
      ∃ u, exec (.brc t f) s = .next u ∧ OnlyTile t s u ∧ Moved {} T T (u.tile t)) ∧
    (Runs s t (f.word 0x04) (specCall T f) →
      ∃ u, exec (.call t f) s = .next u ∧ OnlyTile t s u ∧
        Moved (specCall T f) T { T with rets := (T.pc + 1) :: T.rets } (u.tile t) ∧ (u.tile t).pc = tgt ∧
        (u.tile t).loops = T.loops ∧ (u.tile t).rets.length ≤ 8) ∧
    (Runs s t (f.word 0x05) (specRet T) →
      ∃ u, exec (.ret t f) s = .next u ∧ OnlyTile t s u ∧ Moved (specRet T) T { T with rets := T.rets.tail } (u.tile t) ∧
        (∃ r, T.rets = r :: T.rets.tail ∧ (u.tile t).pc = r) ∧ (u.tile t).loops = T.loops) ∧
    (Runs s t (f.word 0x03) (specLoop T f) → loopCount T f = 0 →
      ∃ u, exec (.loop t f) s = .next u ∧ OnlyTile t s u ∧ Moved (specLoop T f) T T (u.tile t) ∧ (u.tile t).pc = tgt + 1 ∧
        (u.tile t).loops = T.loops) ∧
    (Runs s t (f.word 0x03) (specLoop T f) → loopCount T f ≠ 0 →
      ∃ u, exec (.loop t f) s = .next u ∧ OnlyTile t s u ∧ Moved (specLoop T f) T T (u.tile t) ∧ (u.tile t).pc = T.pc + 1 ∧
        (u.tile t).loops = { start := T.pc + 1, stop := tgt, left := loopCount T f } :: T.loops)) ∧
  (∀ v : Word, (brcTaken 0 v = true ↔ v = 0) ∧ (brcTaken 1 v = true ↔ v ≠ 0) ∧ (brcTaken 2 v = true ↔ v.toInt < 0) ∧
    (brcTaken 3 v = true ↔ 0 ≤ v.toInt)) ∧
  (∀ (p tgt : BitVec 11) (ls : List LoopLevel), ∃ out, ls = out ++ popOutside p tgt ls ∧
    (∀ l ∈ out, l.start ≤ p ∧ p ≤ l.stop ∧ ¬ (l.start ≤ tgt ∧ tgt ≤ l.stop)) ∧
    (∀ l ∈ (popOutside p tgt ls).head?, ¬ (l.start ≤ p ∧ p ≤ l.stop ∧ ¬ (l.start ≤ tgt ∧ tgt ≤ l.stop))))

/-- LDC and STC: control registers at once, scratchpad words through the sequencer's bank access, whose completion writes them. The
oldest bank access of the sequencer completes: a word loaded into its scalar, a word or granules stored, and no other byte of the
scratchpad changed. The clk that an access waited at a bank are counted in that bank's BANK_WAIT, corrected words in CORR_COUNT.
What it says of choices of the model follows the log: entries 15, 70, 77. -/
def Obligations.SequencerMemory : Prop :=
  (∀ (s : State) (t : TileAddr) (f : FmtC), let T := s.tile t
    let a := (T.sreg f.sa.toNat + f.imm).toNat
    (Runs s t (f.word 0x10) (specLdc T f) → f.sfx = 0 →
      ∃ u, exec (.ldc t f) s = .next u ∧ OnlyTile t s u ∧
        Moved (specLdc T f) T (T.setSreg f.sd.toNat (controlRead t T (f.imm.toNat % 256))) (u.tile t)) ∧
    (Runs s t (f.word 0x10) (specLdc T f) → f.sfx = 1 →
      ∃ u, exec (.ldc t f) s = .next u ∧ OnlyTile t s u ∧ a % 4 = 0 ∧ a < 0x60000 ∧
        Moved (specLdc T f) T { T with pend := if f.sd = 0 then T.pend else T.pend ++ [f.sd.toNat]
                                       seqAcc := T.seqAcc ++ [.loadWord f.sd.toNat a] } (u.tile t)) ∧
    (Runs s t (f.word 0x11) (specStc T f) → f.sfx = 0 → f.imm = 3 →
      ∃ u, exec (.stc t f) s = .next u ∧ OnlyTile t s u ∧
        Moved (specStc T f) T { T with wakeLatch := T.wakeLatch &&& ~~~((T.sreg f.sa.toNat).extractLsb' 0 8) } (u.tile t)) ∧
    (Runs s t (f.word 0x11) (specStc T f) → f.sfx = 0 → ∀ n, n < 16 → f.imm.toNat = 0x20 + n →
      ∃ u, exec (.stc t f) s = .next u ∧ OnlyTile t s u ∧
        Moved (specStc T f) T (T.setCredit n ((T.sreg f.sa.toNat).extractLsb' 0 8)) (u.tile t)) ∧
    (Runs s t (f.word 0x11) (specStc T f) → f.sfx = 1 →
      ∃ u, exec (.stc t f) s = .next u ∧ OnlyTile t s u ∧ a % 4 = 0 ∧ a < 0x60000 ∧
        Moved (specStc T f) T { T with seqAcc := T.seqAcc ++ [.storeWord T.nextId a (T.sreg f.sb.toNat)] } (u.tile t))) ∧
  (∀ (s : State) (t : TileAddr) (b : BankNote),
    ((s.tile t).seqAcc = [] → exec (.sequencerAccessDone ⟨t, b⟩) s = .next s) ∧
    ((s.tile t).seqAcc ≠ [] → ∃ u, exec (.sequencerAccessDone ⟨t, b⟩) s = .next u ∧ OnlyTile t s u ∧
      (u.tile t).ctr = ((s.tile t).noted b).ctr)) ∧
  (∀ (T : Tile) (b : BankNote), T.noted b = { T with ctr := (T.noted b).ctr } ∧
    (∀ n : Fin 16, ((T.noted b).counter (ctrBankWait n.val)).toNat =
      min (2 ^ 32 - 1) ((T.counter (ctrBankWait n.val)).toNat + b.waits.count n)) ∧
    ((T.noted b).counter ctrCorr).toNat = min (2 ^ 32 - 1) ((T.counter ctrCorr).toNat + b.corr)) ∧
  (∀ (s : State) (t : TileAddr) (b : BankNote) (rest : List SeqAccess), let T := s.tile t
    (∀ sd a, T.seqAcc = .loadWord sd a :: rest →
      ∃ u, exec (.sequencerAccessDone ⟨t, b⟩) s = .next u ∧ OnlyTile t s u ∧ (u.tile t).pad = T.pad ∧ (u.tile t).seqAcc = rest ∧
        (∀ n, (u.tile t).sreg n = if n = sd ∧ sd ≠ 0 then wordLE (T.pad.read a 4) else T.sreg n) ∧
        (u.tile t).pend = T.pend.erase sd) ∧
    (∀ j a v, T.seqAcc = .storeWord j a v :: rest →
      ∃ u, exec (.sequencerAccessDone ⟨t, b⟩) s = .next u ∧ OnlyTile t s u ∧ (u.tile t).seqAcc = rest ∧
        (∀ n, (u.tile t).sreg n = T.sreg n) ∧ (u.tile t).pad.read a 4 = bytesLE 4 v.toNat ∧
        PadOutside a 4 T (u.tile t)) ∧
    (∀ id g x y, T.seqAcc = .stepWait id g x y :: rest →
      ∃ u, exec (.sequencerAccessDone ⟨t, b⟩) s = .next u ∧ OnlyTile t s u ∧ (u.tile t).seqAcc = rest ∧
        (u.tile t).granule g = x ∧ (u.tile t).granule (g + 1) = y ∧ PadOutside (32 * g) 64 T (u.tile t) ∧
        (∀ e ∈ (u.tile t).sb, e.id ≠ id)) ∧
    (∀ id g sd x, T.seqAcc = .take id g sd x :: rest →
      ∃ u, exec (.sequencerAccessDone ⟨t, b⟩) s = .next u ∧ OnlyTile t s u ∧ (u.tile t).seqAcc = rest ∧
        (u.tile t).granule g = x ∧ PadOutside (32 * g) 32 T (u.tile t) ∧
        (∀ n, (u.tile t).sreg n = if n = sd ∧ sd ≠ 0 then x.extractLsb' 0 32 else T.sreg n) ∧
        (∀ e ∈ (u.tile t).sb, e.id ≠ id)))

/-- HALT stops the tile once nothing is in flight and raises TILE_HALTED; STEPWAIT takes the oldest notice. -/
def Obligations.HaltAndStepwait : Prop :=
  ∀ (s : State) (t : TileAddr), let T := s.tile t
    (∀ f : FmtC, atCheck s t (f.word 0x06) = true → verdict T (f.word 0x06) (specHalt T) = .issue →
      ∃ u, exec (.halt t f) s = .next u ∧ u = { s with tiles := u.tiles, headers := u.headers, host := u.host } ∧
        (∀ v, v ≠ t → u.tile v = s.tile v) ∧ Moved (specHalt T) T { T with halted := true } (u.tile t) ∧
        T.sb = [] ∧ T.sendQ = [] ∧ T.mgmtQ = [] ∧
        (s.recovery = false → ∀ p, T.part = some p → (u.header 0 (pagePrt + p.val)).evtStat.getLsbD 6 = true)) ∧
    (∀ f : FmtA, Runs s t (f.word 0x07) (specStepwait T f) →
      ∃ u x y rest, exec (.stepwait t f) s = .next u ∧ OnlyTile t s u ∧ T.mailbox = (x, y) :: rest ∧
        Moved (specStepwait T f) T { (T.setSreg f.sx.toNat (x.extractLsb' 0 32)).withEntry (specStepwait T f) .memory with
          stepNo := x.extractLsb' 0 32, mailbox := rest
          seqAcc := T.seqAcc ++ [.stepWait T.nextId (T.areg f.ad.toNat).lo x y] } (u.tile t))

/-! ### Synchronisation instructions -/

/-- WAITA and FENCE only pass; CLRA clears one arrival counter; WAKE queues one wake flit to the tile of its operand. SLEEP and SPIN
with a wire of their mask latched finish at once: s[sd] gets the wires hit, which are consumed. Without one, SPIN goes on spinning
and SLEEP asks the region's stager for its entry. -/
def Obligations.WaitsWakesAndSleep : Prop :=
  (∀ (s : State) (t : TileAddr) (f : FmtC), let T := s.tile t
    (Runs s t (f.word 0x20) (specWaita T f) →
      ∃ u, exec (.waita t f) s = .next u ∧ OnlyTile t s u ∧ Moved (specWaita T f) T T (u.tile t) ∧
        ((src2 T f).extractLsb' 0 24).toNat ≤ (T.arrived f.sfx.toNat).toNat) ∧
    (Runs s t (f.word 0x21) (specClra T f) →
      ∃ u, exec (.clra t f) s = .next u ∧ OnlyTile t s u ∧ (T.window f.sfx.toNat).opened = false ∧
        Moved (specClra T f) T (T.setArrive f.sfx.toNat 0) (u.tile t)) ∧
    (Runs s t (f.word 0x28) (specFence T f) →
      ∃ u, exec (.fence t f) s = .next u ∧ OnlyTile t s u ∧ Moved (specFence T f) T T (u.tile t) ∧
        (f.imm = 0 → T.sb = [] ∧ T.mgmtQ = [])) ∧
    (Runs s t (f.word 0x22) (specWake s t f) →
      ∃ u v, exec (.wake t f) s = .next u ∧ OnlyTile t s u ∧ tileAt (T.sreg f.sa.toNat).toNat = some v ∧ samePart s t v = true ∧
        Moved (specWake s t f) T { T with mgmtQ := T.mgmtQ ++ [{ src := .tile t, dst := v, body := .wake f.sfx.toNat }] }
          (u.tile t))) ∧
  (∀ (s : State) (t : TileAddr) (f : FmtC), let T := s.tile t
    let mask : Byte := f.imm.extractLsb' 0 8
    let hit := T.wakeLatch &&& mask
    let nap : Nap := { mask := mask, limit := napLimit T f, sd := f.sd.toNat }
    (Runs s t (f.word 0x23) (specSleep T f) → hit ≠ 0 →
      ∃ u, exec (.sleep t f) s = .next u ∧ OnlyTile t s u ∧ Moved (specSleep T f) T
        { T.setSreg f.sd.toNat (hit.setWidth 32) with wakeLatch := T.wakeLatch &&& ~~~hit, nap := {} } (u.tile t)) ∧
    (Runs s t (f.word 0x23) (specSleep T f) → hit = 0 →
      ∃ u, exec (.sleep t f) s = .next u ∧ u = { s with tiles := u.tiles, regions := u.regions } ∧
        (∀ v, v ≠ t → u.tile v = s.tile v) ∧ T.sb = [] ∧
        Moved (specSleep T f) T { T with nap := { nap with rest := .entering } } (u.tile t) ∧
        u.region (regionOf t) = { s.region (regionOf t) with entries := (s.region (regionOf t)).entries ++ [t] }) ∧
    (Runs s t (f.word 0x24) (specSpin f) → hit ≠ 0 →
      ∃ u, exec (.spin t f) s = .next u ∧ OnlyTile t s u ∧ Moved (specSpin f) T
        { T.setSreg f.sd.toNat (hit.setWidth 32) with wakeLatch := T.wakeLatch &&& ~~~hit, nap := {} } (u.tile t)) ∧
    (Runs s t (f.word 0x24) (specSpin f) → hit = 0 → mask = 0 → napLimit T f = 0 →
      ∃ u, exec (.spin t f) s = .next u ∧ OnlyTile t s u ∧
        Moved (specSpin f) T { T.setSreg f.sd.toNat 0x80000000 with nap := {} } (u.tile t)) ∧
    (Runs s t (f.word 0x24) (specSpin f) → hit = 0 → ¬ (mask = 0 ∧ napLimit T f = 0) →
      ∃ u, exec (.spin t f) s = .next u ∧ OnlyTile t s u ∧
        Moved (specSpin f) T { T with nap := { nap with rest := .spin } } (u.tile t)))

/-- BARA reverses the tile's sense of the barrier and leaves it pending; BARW passes once the release sense equals it. -/
def Obligations.BarriersAndHoldreq : Prop :=
  ∀ (s : State) (t : TileAddr) (f : FmtC), let T := s.tile t
    let b := f.imm.toNat % 32
    let bit : Word := BitVec.ofNat 32 (2 ^ b)
    (Runs s t (f.word 0x25) (specBara T f) →
      ∃ u, exec (.bara t f) s = .next u ∧ OnlyTile t s u ∧ T.barMember.getLsbD b = true ∧ T.barPend.getLsbD b = false ∧
        Moved (specBara T f) T { T with barSense := T.barSense ^^^ bit, barPend := T.barPend ||| bit } (u.tile t)) ∧
    (Runs s t (f.word 0x26) (specBarw s t f) →
      ∃ u, exec (.barw t f) s = .next u ∧ OnlyTile t s u ∧ T.barPend.getLsbD b = true ∧
        (s.partOf t).release.getLsbD b = T.barSense.getLsbD b ∧
        Moved (specBarw s t f) T { T with barPend := T.barPend &&& ~~~bit } (u.tile t)) ∧
    (Runs s t (f.word 0x27) { needs := src2Needs f } → holdreqClk T f = 0 →
      ∃ u, exec (.holdreq t f) s = .next u ∧ OnlyTile t s u ∧ Moved { needs := src2Needs f } T T (u.tile t)) ∧
    (Runs s t (f.word 0x27) { needs := src2Needs f } → holdreqClk T f ≠ 0 → ∀ p, T.part = some p →
      ∃ u, exec (.holdreq t f) s = .next u ∧ u = { s with tiles := u.tiles, parts := u.parts } ∧
        (∀ v, v ≠ t → u.tile v = s.tile v) ∧ (∀ q, q ≠ p.val → u.part q = s.part q) ∧
        u.part p.val = { s.part p.val with hsHoldreq := true } ∧
        Moved { needs := src2Needs f } T { T with holdreq := ((src2 T f).extractLsb' 0 16).toNat, holdreqOn := true } (u.tile t))

/-! ### Memory and serving instructions -/

/-- DLOAD, DSTORE, DLATCH, FLUSHP and COPY take a scoreboard entry on their ranges and enter their queue; no byte moves yet. A
FLUSHP.N takes, in issue order, the place of its notice among the management flits (R193). -/
def Obligations.MemoryMovesEnterTheirQueues : Prop :=
  ∀ (s : State) (t : TileAddr) (f : FmtA), let T := s.tile t
    let d := T.areg f.ad.toNat
    let a := T.areg f.as_.toNat
    let note := if f.sfx.getLsbD 0 then some ((T.sreg f.sx.toNat).toNat % 8192, f.imm.toNat % 4096) else none
    (Runs s t (f.word 0x40) (specDload T f) →
      ∃ u, exec (.dload t f) s = .next u ∧ OnlyTile t s u ∧ d.n = perLine (f.sfx.getLsbD 0) * a.n ∧
        Moved (specDload T f) T { T.withEntry (specDload T f) .memory with
          readQ := T.readQ ++ [{ id := T.nextId, lines := List.range' a.lo a.n, use := .pad d.lo (f.sfx.getLsbD 0) }] } (u.tile t)) ∧
    (Runs s t (f.word 0x41) (specDstore T f) →
      ∃ u, exec (.dstore t f) s = .next u ∧ OnlyTile t s u ∧ a.n = perLine (f.sfx.getLsbD 0) * d.n ∧
        Moved (specDstore T f) T { T.withEntry (specDstore T f) .memory with
          writeQ := T.writeQ ++ [{ id := T.nextId, line := d.lo, left := d.n, granule := a.lo, side := f.sfx.getLsbD 0,
                                   flush := false }] } (u.tile t)) ∧
    (Runs s t (f.word 0x42) (specDlatch T f) →
      ∃ u, exec (.dlatch t f) s = .next u ∧ OnlyTile t s u ∧ a.n = 1 ∧
        Moved (specDlatch T f) T { T.withEntry (specDlatch T f) .memory with
          readQ := T.readQ ++ [{ id := T.nextId, lines := [a.lo], use := .latch }] } (u.tile t)) ∧
    (Runs s t (f.word 0x63) (specFlushp T f) →
      ∃ u, exec (.flushp t f) s = .next u ∧ OnlyTile t s u ∧ a.n = 34 * d.n ∧
        Moved (specFlushp T f) T { T.withEntry (specFlushp T f) .serving with
          writeQ := T.writeQ ++ [{ id := T.nextId, line := d.lo, left := d.n, granule := a.lo, side := true, flush := true, notice := note }]
          mgmtQ := T.mgmtQ ++ (if note.isSome then [{ src := .tile t, dst := (s.partOf t).gate, rim := true, body := .due T.nextId }] else []) }
          (u.tile t)) ∧
    (Runs s t (f.word 0x46) (specCopy T f) →
      ∃ u, exec (.copy t f) s = .next u ∧ OnlyTile t s u ∧ d.n = a.n ∧ d.overlaps a = false ∧
        Moved (specCopy T f) T { T.withEntry (specCopy T f) .memory with
          vecQ := T.vecQ ++ [vecOp T 0x46 f (cdiv a.n 8)] } (u.tile t))

/-- SEND and DESC enter the send queue, a SEND without .NC and .STEP taking one credit; TAKE takes the oldest descriptor. -/
def Obligations.SendsAndTakes : Prop :=
  ∀ (s : State) (t : TileAddr) (f : FmtA), let T := s.tile t
    let a := T.areg f.as_.toNat
    let c := f.idx.toNat % 16
    (Runs s t (f.word 0x43) (specSend s t f) → f.sfx.getLsbD 1 = false → f.sfx.getLsbD 2 = false →
      ∃ u v, exec (.send t f) s = .next u ∧ OnlyTile t s u ∧ tileAt (T.sreg f.sx.toNat).toNat = some v ∧ samePart s t v = true ∧
        T.creditOf c ≠ 0 ∧
        Moved (specSend s t f) T { (T.setCredit c (T.creditOf c - 1)).withEntry (specSend s t f) .send with
          sendQ := T.sendQ ++ [{ id := T.nextId, desc := false, step := false
                                 chan := if f.sfx.getLsbD 0 then .flow else .sched, dst := v
                                 g0 := ((T.sreg f.sy.toNat + f.imm.setWidth 32).extractLsb' 0 14).toNat
                                 base := a.lo, n := a.n }] } (u.tile t)) ∧
    (Runs s t (f.word 0x43) (specSend s t f) → f.sfx.getLsbD 1 = true →
      ∃ u v, exec (.send t f) s = .next u ∧ OnlyTile t s u ∧ tileAt (T.sreg f.sx.toNat).toNat = some v ∧
        Moved (specSend s t f) T { T.withEntry (specSend s t f) .send with
          sendQ := T.sendQ ++ [{ id := T.nextId, desc := false, step := false
                                 chan := if f.sfx.getLsbD 0 then .flow else .sched, dst := v
                                 g0 := ((T.sreg f.sy.toNat + f.imm.setWidth 32).extractLsb' 0 14).toNat
                                 base := a.lo, n := a.n }] } (u.tile t)) ∧
    (Runs s t (f.word 0x43) (specSend s t f) → f.sfx.getLsbD 2 = true →
      ∃ u v, exec (.send t f) s = .next u ∧ OnlyTile t s u ∧ tileAt (T.sreg f.sx.toNat).toNat = some v ∧ a.n = 2 ∧
        Moved (specSend s t f) T { T.withEntry (specSend s t f) .send with
          sendQ := T.sendQ ++ [{ id := T.nextId, desc := false, step := true, chan := .mgmt, dst := v
                                 g0 := ((T.sreg f.sy.toNat + f.imm.setWidth 32).extractLsb' 0 14).toNat
                                 base := a.lo, n := a.n }] } (u.tile t)) ∧
    (Runs s t (f.word 0x60) (specDesc s t f) →
      ∃ u v, exec (.desc t f) s = .next u ∧ OnlyTile t s u ∧ tileAt (T.sreg f.sx.toNat).toNat = some v ∧ a.n ≤ 32 ∧
        Moved (specDesc s t f) T { T.withEntry (specDesc s t f) .serving with
          sendQ := T.sendQ ++ [{ id := T.nextId, desc := true, step := false
                                 chan := if f.sfx.getLsbD 0 then .flow else .sched, dst := v, g0 := 0
                                 base := a.lo, n := a.n }] } (u.tile t)) ∧
    (Runs s t (f.word 0x61) (specTake T f) →
      ∃ u x rest, exec (.take t f) s = .next u ∧ OnlyTile t s u ∧ T.descQ = x :: rest ∧
        Moved (specTake T f) T { T.withEntry (specTake T f) .serving with
          descQ := rest, pend := if f.sx = 0 then T.pend else T.pend ++ [f.sx.toNat]
          seqAcc := T.seqAcc ++ [.take T.nextId (T.areg f.ad.toNat).lo f.sx.toNat x] } (u.tile t))

/-- WIN opens a window and clears its counter, WIN.X closes one and keeps the counter; CRED queues a credit flit, CRED.R re-arming
its window first. -/
def Obligations.WindowsAndCredits : Prop :=
  ∀ (s : State) (t : TileAddr) (f : FmtA), let T := s.tile t
    let n := f.idx.toNat % 16
    let m := f.imm.toNat / 4096 % 16
    let w := T.areg f.ad.toNat
    let e := if f.imm = 0 then 32 * w.n else f.imm.toNat
    (Runs s t (f.word 0x44) (specWin T f) → f.sfx = 0 →
      ∃ u, exec (.win t f) s = .next u ∧ OnlyTile t s u ∧ e % 32 = 0 ∧ e ≤ 32 * w.n ∧
        Moved (specWin T f) T ((T.setWindow n { opened := true, range := w, expected := e }).setArrive n 0) (u.tile t)) ∧
    (Runs s t (f.word 0x44) (specWin T f) → f.sfx = 1 →
      ∃ u, exec (.win t f) s = .next u ∧ OnlyTile t s u ∧
        Moved (specWin T f) T (T.setWindow n { T.window n with opened := false }) (u.tile t)) ∧
    (Runs s t (f.word 0x45) (specCred s t f) → f.sfx = 0 →
      ∃ u v, exec (.cred t f) s = .next u ∧ OnlyTile t s u ∧ tileAt (T.sreg f.sx.toNat).toNat = some v ∧
        Moved (specCred s t f) T { T with mgmtQ := T.mgmtQ ++
          [{ src := .tile t, dst := v, body := .credit n (f.imm.toNat % 256) }] } (u.tile t)) ∧
    (Runs s t (f.word 0x45) (specCred s t f) → f.sfx = 1 →
      ∃ u v, exec (.cred t f) s = .next u ∧ OnlyTile t s u ∧ tileAt (T.sreg f.sx.toNat).toNat = some v ∧
        (T.window m).opened = true ∧
        Moved (specCred s t f) T { T.setArrive m 0 with mgmtQ := T.mgmtQ ++
          [{ src := .tile t, dst := v, body := .credit n (f.imm.toNat % 256) }] } (u.tile t))

/-! ### Arithmetic instructions at issue -/

/-- MATV, MATM, KDOT, VACC and ADAPT enter the row engine's queue with the lines that their operands name, all operands copied at
issue. MATM.LT passes the latch to one row of its batch in a step. An ADAPT whose slot word says none takes only a scoreboard entry, which
is released 1 clk later (R167).
What it says of choices of the model follows the log: entry 106. -/
def Obligations.RowEngineInstructionsEnter : Prop :=
  ∀ (s : State) (t : TileAddr) (f : FmtA), let T := s.tile t
    let a := T.areg f.as_.toNat
    let b := T.areg (f.as_.toNat + 1)
    (Runs s t (f.word 0x80) (specMat T f false) →
      ∃ u o, exec (.matv t f) s = .next u ∧ OnlyTile t s u ∧ o = rowOp T 0x80 f o.lines o.total ∧
        o.lines = (if (T.sreg f.sy.toNat).getLsbD 0 then List.range' b.lo b.n else List.range' a.lo a.n) ∧
        Moved (specMat T f false) T (rowEntered T (specMat T f false) o) (u.tile t)) ∧
    (Runs s t (f.word 0x81) (specMat T f true) → f.sfx.getLsbD 3 = false →
      ∃ u o, exec (.matm t f) s = .next u ∧ OnlyTile t s u ∧ o = rowOp T 0x81 f o.lines o.lines.length ∧
        o.lines = weightLines T f.as_.toNat (T.sreg f.sy.toNat) (f.imm.toNat % 16) ∧
        1 ≤ f.imm.toNat % 16 ∧ f.imm.toNat % 16 ≤ 8 ∧
        Moved (specMat T f true) T (rowEntered T (specMat T f true) o) (u.tile t)) ∧
    (Runs s t (f.word 0x81) (specMat T f true) → f.sfx.getLsbD 3 = true →
      ∃ u, exec (.matm t f) s = .next u ∧ OnlyTile t s u ∧
        Moved (specMat T f true) T (rowEntered T (specMat T f true) (rowOp T 0x81 f [] (f.imm.toNat % 16))) (u.tile t)) ∧
    (Runs s t (f.word 0x84) (specKdot T f) →
      ∃ u o, exec (.kdot t f) s = .next u ∧ OnlyTile t s u ∧ o = rowOp T 0x84 f o.lines o.total ∧
        (if f.sfx.getLsbD 1 then o.lines = [] ∧ 34 * o.total = a.n else o.lines = List.range' a.lo a.n ∧ o.total = a.n) ∧
        Moved (specKdot T f) T (rowEntered T (specKdot T f) o) (u.tile t)) ∧
    (Runs s t (f.word 0x85) (specVacc T f) →
      ∃ u o, exec (.vacc t f) s = .next u ∧ OnlyTile t s u ∧ o = rowOp T 0x85 f o.lines o.total ∧
        (if f.sfx.getLsbD 1 then o.lines = [] ∧ 34 * o.total = a.n else o.lines = List.range' a.lo a.n ∧ o.total = a.n) ∧
        Moved (specVacc T f) T (rowEntered T (specVacc T f) o) (u.tile t)) ∧
    (Runs s t (f.word 0x86) (specAdapt T f) → (T.sreg f.sy.toNat).getLsbD 31 = true →
      ∃ u, exec (.adapt t f) s = .next u ∧ OnlyTile t s u ∧ (specAdapt T f).brief = true ∧
        Moved (specAdapt T f) T (T.withEntry (specAdapt T f) .arith) (u.tile t)) ∧
    (Runs s t (f.word 0x86) (specAdapt T f) → (T.sreg f.sy.toNat).getLsbD 31 = false →
      ∃ u first, exec (.adapt t f) s = .next u ∧ OnlyTile t s u ∧
        first = a.lo + f.imm.toNat % 2 ^ 14 *
          (2 * ((T.sreg f.sy.toNat).extractLsb' 0 10).toNat + ((T.sreg f.sy.toNat).extractLsb' 10 1).toNat) ∧
        first + a.n ≤ 8192 ∧
        Moved (specAdapt T f) T (rowEntered T (specAdapt T f) (rowOp T 0x86 f (List.range' first a.n) a.n)) (u.tile t))

/-- The vector instructions take an entry and join the vector queue with all operands copied at issue: the matrix reads and clears,
conversions, serving, selection, and the element instructions, one group for each 64 elements of the source. -/
def Obligations.VectorInstructionsEnter : Prop :=
  (∀ (s : State) (t : TileAddr) (f : FmtA), let T := s.tile t
    (Runs s t (f.word 0x82) (specAccz T f) → ∃ u n, exec (.accz t f) s = .next u ∧ OnlyTile t s u ∧
      n = cdiv (T.areg f.ad.toNat).n 64 ∧
      Moved (specAccz T f) T (vecEntered T (specAccz T f) .arith 0x82 f n) (u.tile t)) ∧
    (Runs s t (f.word 0x83) (specAccout T f) → ∃ u n, exec (.accout t f) s = .next u ∧ OnlyTile t s u ∧
      n = cdiv (T.areg f.as_.toNat).n 64 ∧
      Moved (specAccout T f) T (vecEntered T (specAccout T f) .arith 0x83 f n) (u.tile t)) ∧
    (Runs s t (f.word 0xA0) (specQact T f) → ∃ u n, exec (.qact t f) s = .next u ∧ OnlyTile t s u ∧
      n = cdiv (T.areg f.ad.toNat).n 2 ∧
      Moved (specQact T f) T (vecEntered T (specQact T f) .arith 0xA0 f n) (u.tile t)) ∧
    (Runs s t (f.word 0xA1) (specCvt T f) → ∃ u n, exec (.cvt t f) s = .next u ∧ OnlyTile t s u ∧ n = cdiv (cvtElems T f) 64 ∧
      Moved (specCvt T f) T (vecEntered T (specCvt T f) .arith 0xA1 f n) (u.tile t)) ∧
    (Runs s t (f.word 0xAA) (specVsumx T f) → ∃ u n, exec (.vsumx t f) s = .next u ∧ OnlyTile t s u ∧
      Moved (specVsumx T f) T (vecEntered T (specVsumx T f) .arith 0xAA f n) (u.tile t)) ∧
    (Runs s t (f.word 0xAC) (specSmax T f) → ∃ u n, exec (.smax t f) s = .next u ∧ OnlyTile t s u ∧
      Moved (specSmax T f) T (vecEntered T (specSmax T f) .arith 0xAC f n) (u.tile t)) ∧
    (Runs s t (f.word 0xAE) (specTopk T f) → ∃ u n, exec (.topk t f) s = .next u ∧ OnlyTile t s u ∧
      1 ≤ f.imm.toNat % 128 ∧ f.imm.toNat % 128 ≤ 64 ∧
      Moved (specTopk T f) T (vecEntered T (specTopk T f) .arith 0xAE f n) (u.tile t)) ∧
    (Runs s t (f.word 0xAD) (specSample T f) → ∃ u, exec (.sample t f) s = .next u ∧ OnlyTile t s u ∧
      Moved (specSample T f) T { vecEntered T (specSample T f) .arith 0xAD f 1 with
        mgmtQ := T.mgmtQ ++ (if f.sfx.getLsbD 1 then
          [{ src := .tile t, dst := (s.partOf t).gate, rim := true, body := .due T.nextId }] else []) } (u.tile t)) ∧
    (Runs s t (f.word 0x62) (specPlat T f) → ∃ u n, exec (.plat t f) s = .next u ∧ OnlyTile t s u ∧
      n = cdiv ((T.areg f.as_.toNat).n / 2) 2 ∧
      Moved (specPlat T f) T (vecEntered T (specPlat T f) .serving 0x62 f n) (u.tile t))) ∧
  (∀ (s : State) (t : TileAddr) (f : FmtA), let T := s.tile t
    let d := T.areg f.ad.toNat
    let a := T.areg f.as_.toNat
    let n := cdiv (32 * a.n / (if f.sfx.toNat % 4 = 0 then 2 else 4)) 64
    (Runs s t (f.word 0xA2) (specElement T f false) → ∃ u, exec (.vadd t f) s = .next u ∧ OnlyTile t s u ∧ d.n = a.n ∧
      Moved (specElement T f false) T (vecEntered T (specElement T f false) .arith 0xA2 f n) (u.tile t)) ∧
    (Runs s t (f.word 0xA3) (specElement T f false) → ∃ u, exec (.vsub t f) s = .next u ∧ OnlyTile t s u ∧ d.n = a.n ∧
      Moved (specElement T f false) T (vecEntered T (specElement T f false) .arith 0xA3 f n) (u.tile t)) ∧
    (Runs s t (f.word 0xA4) (specElement T f false) → ∃ u, exec (.vmul t f) s = .next u ∧ OnlyTile t s u ∧ d.n = a.n ∧
      Moved (specElement T f false) T (vecEntered T (specElement T f false) .arith 0xA4 f n) (u.tile t)) ∧
    (Runs s t (f.word 0xA5) (specElement T f true) → ∃ u, exec (.vfma t f) s = .next u ∧ OnlyTile t s u ∧ d.n = a.n ∧
      Moved (specElement T f true) T (vecEntered T (specElement T f true) .arith 0xA5 f n) (u.tile t)) ∧
    (Runs s t (f.word 0xA6) (specVmax T f) → ∃ u, exec (.vmax t f) s = .next u ∧ OnlyTile t s u ∧
      d.n = (if f.sfx.getLsbD 3 then 1 else a.n) ∧
      Moved (specVmax T f) T (vecEntered T (specVmax T f) .arith 0xA6 f n) (u.tile t)) ∧
    (Runs s t (f.word 0xAB) (specElement T f (!f.sfx.getLsbD 3)) → ∃ u, exec (.vsel t f) s = .next u ∧ OnlyTile t s u ∧ d.n = a.n ∧
      Moved (specElement T f (!f.sfx.getLsbD 3)) T (vecEntered T (specElement T f (!f.sfx.getLsbD 3)) .arith 0xAB f n) (u.tile t)) ∧
    (Runs s t (f.word 0xA7) (specUnary T f) → ∃ u, exec (.vexp t f) s = .next u ∧ OnlyTile t s u ∧ d.n = a.n ∧
      Moved (specUnary T f) T (vecEntered T (specUnary T f) .arith 0xA7 f n) (u.tile t)) ∧
    (Runs s t (f.word 0xA8) (specUnary T f) → ∃ u, exec (.vrcp t f) s = .next u ∧ OnlyTile t s u ∧ d.n = a.n ∧
      Moved (specUnary T f) T (vecEntered T (specUnary T f) .arith 0xA8 f n) (u.tile t)) ∧
    (Runs s t (f.word 0xA9) (specUnary T f) → ∃ u, exec (.vrsq t f) s = .next u ∧ OnlyTile t s u ∧ d.n = a.n ∧
      Moved (specUnary T f) T (vecEntered T (specUnary T f) .arith 0xA9 f n) (u.tile t)))

/-- The due clk of an exact-mode instruction that stalls is a slip: counted once for it, recorded in FIRST_SLIP if that was empty,
the partition's slip flag set; no register or memory changes (R236, R237). -/
def Obligations.DueInstructionThatStallsSlips : Prop :=
  ∀ (s : State) (t : TileAddr) (w : Wait) (p : PartId), let T := s.tile t
    T.part = some p → (s.part p.val).exact = true → ready s t = true → T.slip = false → waitingVerdict s t = .stall w →
    ∃ u, exec (.issueDue t) s = .next u ∧ u = { s with tiles := u.tiles, parts := u.parts } ∧
      (∀ v, v ≠ t → u.tile v = s.tile v) ∧ (∀ q, q ≠ p.val → u.part q = s.part q) ∧
      u.part p.val = { s.part p.val with hsSlip := true } ∧
      u.tile t = { T with slip := true, wait := w, ctr := (u.tile t).ctr
                          firstSlip := if T.firstSlip = 0 then slipWord w T.pc else T.firstSlip } ∧
      (∀ off, (u.tile t).counter off = if off = ctrSlip then satAdd32 (T.counter off) 1 else T.counter off)

/-! ### The column and its queues -/

/-- A line that has started, or that the ports can start now, reaches its consumer: a DLOAD line (with .S its side field too) lands in
the scratchpad and nowhere else there, a DLATCH line in the latch, a row-engine line in the line buffer; column and side fields stand.
Corrected words are counted in CORR_COUNT, waits at banks in BANK_WAIT, and the line in the governor's window, and nothing else is
(R33, R206, R29). The last line of a DLOAD or DLATCH releases its entry. A line that cannot start, for a burst, a write that has begun
or a hold, and one for the scratchpad that an earlier STC.M precedes, waits, and nothing changes (R37, R56, R61, R119). A line of another
reader is taken by that reader's own step.
What it says of choices of the model follows the log: entries 70, 89. -/
def Obligations.LinesReachTheirConsumers : Prop :=
  (∀ (s : State) (t : TileAddr) (b : BankNote), let T := s.tile t
    let waits := exec (.columnReadLine ⟨t, b⟩ false) s = .next s
    (∀ o q, T.readQ = o :: q → o.started = 0 → T.portFree = false ∨ held s t = true → waits) ∧
    (∀ o q g side, T.readQ = o :: q → o.use = .pad g side → T.inOrder o.id = false → waits) ∧ (T.readQ = [] → waits) ∧
    (∃ u, exec (.columnReadLine ⟨t, b⟩ true) s = .next u ∧ OnlyTile t s u ∧ u.tile t = { T.noted b with reads := T.reads + 1 })) ∧
  ∀ (s : State) (t : TileAddr) (b : BankNote) (o : ReadOp) (q : List ReadOp) (n : Nat) (rest : List Nat), let T := s.tile t
    T.readQ = o :: q → o.lines = n :: rest → (o.started ≠ 0 ∨ (T.portFree = true ∧ held s t = false)) →
    ((∃ g side, o.use = .pad g side) → T.inOrder o.id = true) →
    ∃ u, exec (.columnReadLine ⟨t, b⟩ false) s = .next u ∧ OnlyTile t s u ∧
      u.tile t = { T with readQ := (u.tile t).readQ, pad := (u.tile t).pad, latch := (u.tile t).latch, reads := T.reads + 1
                          lineBuf := (u.tile t).lineBuf, sb := (u.tile t).sb, ctr := (T.noted b).ctr } ∧
      (∀ g side, o.use = .pad g side →
        (∀ k, (u.tile t).pad.get k =
          if 32 * g ≤ k ∧ k < 32 * g + 1024 then T.column.get (1024 * n + (k - 32 * g))
          else if side = true ∧ 32 * g + 1024 ≤ k ∧ k < 32 * g + 1152 then T.side.get (128 * n + (k - (32 * g + 1024)))
          else T.pad.get k) ∧ (u.tile t).latch = T.latch ∧ (u.tile t).lineBuf = T.lineBuf) ∧
      (o.use = .latch → (u.tile t).latch = T.line n ∧ (u.tile t).pad = T.pad ∧ (u.tile t).lineBuf = T.lineBuf) ∧
      (o.use = .rowEngine → (u.tile t).lineBuf = T.lineBuf ++ [{ id := o.id, line := T.line n }] ∧
        (u.tile t).pad = T.pad ∧ (u.tile t).latch = T.latch ∧ (u.tile t).sb = T.sb) ∧
      (rest = [] → (u.tile t).readQ = q ∧ (o.use ≠ .rowEngine → (u.tile t).sb = T.sb.filter fun e => e.id != o.id)) ∧
      (rest ≠ [] → (u.tile t).sb = T.sb ∧ ∃ o', (u.tile t).readQ = o' :: q ∧ o'.id = o.id ∧ o'.lines = rest ∧
        o'.started = o.started - 1)

/-- A DSTORE line in front of the write queue is written, if it has begun or can begin with no burst running or waiting and no hold: the
line's 1,024 bytes, with .S its 128 side bytes, and no other byte of the column, of the side fields or of the scratchpad. A FLUSHP image
is written if it has begun, or with no P1 access waiting either: its line, its side bytes 0–63, and zero in side bytes 64–127; the last
line of a FLUSHP.N puts the page-full notice in its place among the management flits (R193).
What it says of choices of the model follows the log: entries 51, 70. -/
def Obligations.StoredLinesWriteTheirBytes : Prop :=
  (∀ (s : State) (t : TileAddr) (b : BankNote) (o : WriteOp) (q : List WriteOp), let T := s.tile t
    T.writeQ = o :: q → o.flush = false →
    (T.writing = some .queue ∨ (T.portFree = true ∧ held s t = false ∧ T.inOrder o.id = true)) →
    ∃ u, exec (.columnWriteLine ⟨t, b⟩) s = .next u ∧ OnlyTile t s u ∧ (u.tile t).pad = T.pad ∧ (u.tile t).writing = none ∧
      (u.tile t).ctr = (T.noted b).ctr ∧
      (∀ k, (u.tile t).column.get k =
        if 1024 * o.line ≤ k ∧ k < 1024 * o.line + 1024 then T.pad.get (32 * o.granule + (k - 1024 * o.line)) else T.column.get k) ∧
      (∀ k, (u.tile t).side.get k =
        if o.side = true ∧ 128 * o.line ≤ k ∧ k < 128 * o.line + 128 then
          T.pad.get (32 * (o.granule + 32) + (k - 128 * o.line)) else T.side.get k) ∧
      (o.left ≤ 1 → (u.tile t).writeQ = q) ∧
      (2 ≤ o.left → (u.tile t).sb = T.sb ∧ (u.tile t).writeQ =
        { o with line := o.line + 1, left := o.left - 1, granule := o.granule + (if o.side then 36 else 32) } :: q)) ∧
  (∀ (s : State) (t : TileAddr) (b : BankNote) (o : WriteOp) (q : List WriteOp), let T := s.tile t
    T.writeQ = o :: q → o.flush = true →
    (T.writing = some .queue ∨ (T.portFree = true ∧ held s t = false ∧ T.inOrder o.id = true ∧ T.readWaiting = 0)) →
    ∃ u, exec (.columnWriteLine ⟨t, b⟩) s = .next u ∧ OnlyTile t s u ∧ (u.tile t).pad = T.pad ∧ (u.tile t).writing = none ∧
      (u.tile t).ctr = (T.noted b).ctr ∧ (T.writing = none → (u.tile t).starve = 0) ∧
      (∀ k, (u.tile t).column.get k =
        if 1024 * o.line ≤ k ∧ k < 1024 * o.line + 1024 then T.pad.get (32 * o.granule + (k - 1024 * o.line)) else T.column.get k) ∧
      (∀ k, (u.tile t).side.get k =
        if 128 * o.line ≤ k ∧ k < 128 * o.line + 64 then T.pad.get (32 * (o.granule + 32) + (k - 128 * o.line))
        else if 128 * o.line + 64 ≤ k ∧ k < 128 * o.line + 128 then 0 else T.side.get k) ∧
      (o.left ≤ 1 → (u.tile t).writeQ = q ∧ ∀ row layer, o.notice = some (row, layer) →
        let n : Flit := { src := .tile t, dst := (s.partOf t).gate, rim := true, body := .pageFull row layer }
        ((∀ g ∈ T.mgmtQ, g.body ≠ .due o.id) → (u.tile t).mgmtQ = T.mgmtQ ++ [n]) ∧
        (∀ xs g ys, T.mgmtQ = xs ++ g :: ys → g.body = .due o.id → (∀ h ∈ xs ++ ys, h.body ≠ .due o.id) →
          (u.tile t).mgmtQ = xs ++ n :: ys))) ∧
  (∀ (s : State) (t : TileAddr) (b : BankNote), let T := s.tile t
    T.writing = none → T.portFree = false ∨ held s t = true ∨ (T.frontWrite false = false ∧ (T.highWaits = true ∨ T.lowWaits = false)) →
    exec (.columnWriteLine ⟨t, b⟩) s = .next s)

/-- A clean retry of a read is counted; an uncorrectable word drops the read and is fault 7 of the tile, with ext set (R36), also where
another reader than the tile's queue meets it. A port that has starved for 1,024 clk serves one lower access, which is counted and ends
the wait; so does a bank for a FLUSHP, and a requester that is refused meanwhile counts in BANK_WAIT (R56, R57, R206). A region out of
service counts no bursts. A burst that falls due while reads wait is owed until refresh_defer_max are, then forced
and counted; with no read waiting it starts; during a burst it waits; owed bursts are repaid when nothing waits; at most 49 columns of a
region, spare ones among them, start in one clk (R37, R38).
What it says of choices of the model follows the log: entries 83, 98. -/
def Obligations.RetriesGrantsAndRefresh : Prop :=
  (∀ (s : State) (t : TileAddr), let T := s.tile t
    (∀ low, low = true ∨ T.readQ ≠ [] →
      ∃ u, exec (.readRetry t ⟨low, true⟩) s = .next u ∧ OnlyTile t s u ∧ u.tile t = T.count ctrRetry 1) ∧
    (∀ low, low = true ∨ T.readQ ≠ [] → ∃ u, exec (.readRetry t ⟨low, false⟩) s = .next u ∧ OnlyTile t s u ∧
      (u.tile t).readQ = (if low then T.readQ else T.readQ.tail) ∧ (u.tile t).halted = true ∧ (u.tile t).pad = T.pad ∧ (u.tile t).column = T.column ∧
      (T.faultInfo = 0 → (u.tile t).faultInfo = faultWord 7 0 true T.pc)) ∧
    (T.portFree = true → held s t = false → (T.flushWaits = true ∨ ∃ a ∈ T.low, 2 ≤ a.level ∧ a.level ≤ 5) → 1024 ≤ T.starve →
      ∃ u, exec (.forcedGrant t none) s = .next u ∧ (u.tile t).starve = 0 ∧
        (u.tile t).counter ctrForcedGrant = satAdd32 (T.counter ctrForcedGrant) 1 ∧ 2 ≤ (u.tile t).lowRot ∧
        (u.tile t).lowRot ≤ 5 ∧ T.waitsAt (u.tile t).lowRot = true) ∧
    (∀ b : BankGrant, T.flushWaits = true → 1024 ≤ FMap.get 0 T.bankStarve b.bank.val →
      ∃ u, exec (.forcedGrant t (some b)) s = .next u ∧ OnlyTile t s u ∧ FMap.get 0 (u.tile t).bankStarve b.bank.val = 0 ∧
        (u.tile t).counter ctrForcedGrant = satAdd32 (T.counter ctrForcedGrant) 1 ∧
        (u.tile t).counter (ctrBankWait b.bank.val) =
          if b.refused then satAdd32 (T.counter (ctrBankWait b.bank.val)) 1 else T.counter (ctrBankWait b.bank.val))) ∧
  (∀ (s : State) (t : TileAddr) (spare : Bool), (s.region (regionOf t)).inService = false →
    exec (.refreshDue ⟨t, spare⟩) s = .next s ∧ exec (.refreshRepay ⟨t, spare⟩) s = .next s) ∧
  (∀ (s : State) (t : TileAddr), let T := s.tile t
    let R := s.region (regionOf t)
    R.inService = true →
    (dueNow R t = true → T.readQ ≠ [] → T.owed < T.deferMax →
      ∃ u, exec (.refreshDue ⟨t, false⟩) s = .next u ∧ OnlyTile t s u ∧ u.tile t = { T with owed := T.owed + 1 }) ∧
    (dueNow R t = true → T.refreshing = false → T.writing = none → T.readQ ≠ [] → T.deferMax ≤ T.owed → R.starts < 49 →
      ∃ u, exec (.refreshDue ⟨t, false⟩) s = .next u ∧ (u.tile t).refreshing = true ∧ (u.tile t).owed = T.owed ∧
        (u.tile t).counter ctrRefreshForced = satAdd32 (T.counter ctrRefreshForced) 1 ∧
        (u.region (regionOf t)).starts = R.starts + 1) ∧
    (dueNow R t = true → T.refreshing = false → T.writing = none → T.readQ = [] → R.starts < 49 →
      ∃ u, exec (.refreshDue ⟨t, false⟩) s = .next u ∧ u.tile t = { T with refreshing := true, burstDue := false } ∧
        u.region (regionOf t) = { R with starts := R.starts + 1 }) ∧
    (dueNow R t = true → T.refreshing = true ∨ 49 ≤ R.starts ∨ T.writing ≠ none → T.readQ = [] →
      ∃ u, exec (.refreshDue ⟨t, false⟩) s = .next u ∧ OnlyTile t s u ∧ u.tile t = { T with burstDue := true }) ∧
    (T.refreshing = false → T.writing = none → T.burstDue = true → R.starts < 49 →
      ∃ u, exec (.refreshRepay ⟨t, false⟩) s = .next u ∧ u.tile t = { T with refreshing := true, burstDue := false } ∧
        u.region (regionOf t) = { R with starts := R.starts + 1 }) ∧
    (T.refreshing = false → T.writing = none → T.burstDue = false → T.owed ≠ 0 → T.readQ = [] → T.writeQ = [] → T.low = [] →
      R.starts < 49 →
      ∃ u, exec (.refreshRepay ⟨t, false⟩) s = .next u ∧ u.tile t = { T with refreshing := true, owed := T.owed - 1 } ∧
        u.region (regionOf t) = { R with starts := R.starts + 1 }) ∧
    (∃ u, exec (.refreshBurstDone ⟨t, false⟩) s = .next u ∧ OnlyTile t s u ∧ u.tile t = { T with refreshing := false })) ∧
  (∀ (s : State) (t : TileAddr), let c := t.col.val % 28
    let R := s.region (regionOf t)
    let spare := fun (u : State) (R' : Region) => u = { s with regions := u.regions } ∧ u.region (regionOf t) = R' ∧
      ∀ q, q ≠ regionOf t → u.region q = s.region q
    let started : Region :=
      { R with starts := R.starts + 1, spareOn := c :: R.spareOn.erase c, spareDue := R.spareDue.erase c }
    R.inService = true →
    (spareDueNow R t = true → R.starts < 49 → ∃ u, exec (.refreshDue ⟨t, true⟩) s = .next u ∧ spare u started) ∧
    (spareDueNow R t = true → 49 ≤ R.starts → ∃ u, exec (.refreshDue ⟨t, true⟩) s = .next u ∧
      spare u { R with spareDue := c :: R.spareDue.erase c }) ∧
    (c ∈ R.spareDue → c ∉ R.spareOn → R.starts < 49 → ∃ u, exec (.refreshRepay ⟨t, true⟩) s = .next u ∧ spare u started) ∧
    (∃ u, exec (.refreshBurstDone ⟨t, true⟩) s = .next u ∧ spare u { R with spareOn := R.spareOn.erase c }))

/-! ### Arithmetic -/

/-- add_contribution: exact inside the window, clamped above kmax with hi, truncated toward zero below 2^−48 with lo, modulo 2^104;
kmax is 35 for a row-engine contribution and a W16 value, 23 for an F32 value, and a NaN or infinity sets inv and adds nothing. -/
def Obligations.ContributionsAreAdded : Prop :=
  (∀ (a : Acc) (k kmax : Int), a.addContribution 0 k kmax = (a, 0)) ∧
  (∀ (a : Acc) (x k kmax : Int), x ≠ 0 → -48 ≤ k → k ≤ kmax →
    a.addContribution x k kmax = ({ a with value := a.value + BitVec.ofInt 104 (x * 2 ^ (k + 48).toNat) }, 0)) ∧
  (∀ (a : Acc) (x k kmax : Int), x ≠ 0 → -48 ≤ kmax → kmax < k →
    a.addContribution x k kmax =
      ({ a with value := a.value + BitVec.ofInt 104 (x * 2 ^ (kmax + 48).toNat), hi := true }, evAccRange)) ∧
  (∀ (a : Acc) (x k kmax : Int), x ≠ 0 → k < -48 → k ≤ kmax → ∃ m : Int,
    (a.addContribution x k kmax).1 =
      { a with value := a.value + BitVec.ofInt 104 m, lo := a.lo || decide (m * 2 ^ (-48 - k).toNat ≠ x) } ∧
    m.natAbs = x.natAbs / 2 ^ (-48 - k).toNat ∧ 0 ≤ m * x ∧
    (a.addContribution x k kmax).2 = if m * 2 ^ (-48 - k).toNat ≠ x then evAccRange else 0) ∧
  (∀ (a : Acc) (n : Bool) (m : Nat) (e : Int),
    a.addValue 7 (.fin n m e) = a.addContribution (if n then -(m : Int) else m) e 35 ∧
    a.addValue 23 (.fin n m e) = a.addContribution (if n then -(m : Int) else m) e 23) ∧
  (∀ (a : Acc) (p : Nat) (v : Fl), v = .nan ∨ v = .inf true ∨ v = .inf false →
    a.addValue p v = ({ a with inv := true }, evInvalid)) ∧
  (∀ (ew w : Int) (v : Fl), v = .nan ∨ v = .inf true ∨ v = .inf false → (wideTerm ew w v).inv = true ∧ (wideTerm ew w v).terms = []) ∧
  (∀ (a : Acc) (x k : Int), (a.addAll { terms := [(x, k)] }).1 = (a.addContribution x k 35).1)

/-- The value, hi, lo and inv of an accumulator after any contributions, of the row engine, of W16 and F32 values on the exact-sum path and of
raw images, in any mixture, do not depend on their order. -/
def Obligations.AccumulatorsForgetOrder : Prop :=
  ∀ (a : Acc) (cs ds : List AccStep), cs.Perm ds → cs.foldl AccStep.addTo a = ds.foldl AccStep.addTo a

/-- One L4 or L3 line of a MATV meets its activation block: accumulator d + r gains row r's contributions for r below 64, no other
accumulator changes, and no memory, latch or scalar does; a row of scale 0xFF contributes nothing (R163, R67). The contributions of
a weight row and a block: one block sum and one product for each outlier of an A4 block, two passes of an A8 block, one product for
each non-zero element of a W16 block; a reserved block gives none and FMT_RESERVED. A row of scale 0xFF sets no inv, whatever its block
holds (log entry 106).
What it says of choices of the model follows the log: entries 54, 74, 106. -/
def Obligations.MatvLinesAccumulate : Prop :=
  (∀ (s : State) (t : TileAddr) (b : BankNote) (o : AOp) (q : List AOp) (ln : Line) (buf : List LineIn), let T := s.tile t
    T.rowQ = o :: q → T.inOrder o.id = true → o.op = 0x80 → o.f.sfx.toNat % 4 ≠ 2 → T.lineBuf = { id := o.id, line := ln } :: buf →
    ∃ u, exec (.rowEngineLine ⟨t, b⟩) s = .next u ∧
      (∀ r, r < 64 → (u.tile t).acc (o.d.lo + r) =
        ((T.acc (o.d.lo + r)).addAll (if ln.side.getD r 0 = 0xFF then { evts := evFmtReserved }
          else blockContribs ((ln.side.getD r 0).toNat - 127) ((List.range 32).map (nibAt ln.data (16 * r)))
            (readBlock T o.b.lo o.b1.lo o.b2.lo o.b.n o.done))).1) ∧
      (∀ n, (∀ r, r < 64 → n ≠ o.d.lo + r) → (u.tile t).acc n = T.acc n) ∧
      (u.tile t).pad = T.pad ∧ (u.tile t).column = T.column ∧ (u.tile t).latch = T.latch ∧ (u.tile t).sregs = T.sregs ∧
      (u.tile t).lineBuf = buf ∧ (∀ v, v ≠ t → u.tile v = s.tile v) ∧
      (o.total ≤ o.done + 1 → (u.tile t).rowQ = q ∧ ∀ e ∈ (u.tile t).sb, e.id ≠ o.id)) ∧
  (∀ (ew : Int) (ws : List Int),
    (∀ e cs, (blockContribs ew ws (.a4 e cs [])).terms = [((List.zipWith (· * ·) ws cs).sum, ew + e)]) ∧
    (∀ e cs i n m x, blockContribs ew ws (.a4 e cs [(i, .fin n m x)]) =
      { terms := [((List.zipWith (· * ·) ws cs).sum, ew + e), (ws.getD i 0 * (if n then -(m : Int) else m), ew + x)] }) ∧
    (∀ e cs, (blockContribs ew ws (.a8 e cs)).terms =
      [((List.zipWith (· * ·) ws (cs.map (· / 16))).sum, ew + e + 4), ((List.zipWith (· * ·) ws (cs.map (· % 16))).sum, ew + e)]) ∧
    (∀ vs : List Fl, (blockContribs ew ws (.w16 vs)).terms =
      (ws.zip vs).flatMap fun wv => match wv.2 with
        | .fin n m e => [(wv.1 * (if n then -(m : Int) else m), ew + e)]
        | _ => []) ∧
    blockContribs ew ws .bad = { evts := evFmtReserved } ∧ blockContribs ew ws .badA8 = { evts := evFmtReserved })

/-- A group of the vector unit: COPY moves its granules, ACCZ zeroes its accumulators, VADD.I32 adds its elements modulo 2^32; every
other byte of the scratchpad and every other accumulator stands. ACCZ is a write to its range alone (R173). -/
def Obligations.VectorGroupsWriteTheirElements : Prop :=
  (∀ (T : Tile) (f : FmtA), (specAccz T f).writes = [T.areg f.ad.toNat] ∧ (specAccz T f).reads = []) ∧
  ∀ (s : State) (t : TileAddr) (b : BankNote) (o : AOp) (q : List AOp), let T := s.tile t
    T.vecQ = o :: q → T.inOrder o.id = true → (held s t = false ∨ o.begun = true) →
    (o.op = 0x46 → ∃ u, exec (.vectorGroupDone ⟨t, b⟩) s = .next u ∧ (∀ v, v ≠ t → u.tile v = s.tile v) ∧
      (u.tile t).accs = T.accs ∧
      ∀ k, (u.tile t).pad.get k =
        if 32 * o.d.lo + 256 * o.done ≤ k ∧ k < 32 * o.d.lo + 256 * o.done + min 256 (32 * o.a.n - 256 * o.done) then
          T.pad.get (32 * o.a.lo + (k - 32 * o.d.lo)) else T.pad.get k) ∧
    (o.op = 0x82 → ∃ u, exec (.vectorGroupDone ⟨t, b⟩) s = .next u ∧ (∀ v, v ≠ t → u.tile v = s.tile v) ∧ (u.tile t).pad = T.pad ∧
      ∀ n, (u.tile t).acc n =
        if o.d.lo + 64 * o.done ≤ n ∧ n < o.d.lo + 64 * o.done + min 64 (o.d.n - 64 * o.done) then {} else T.acc n) ∧
    (o.op = 0xA2 → o.f.sfx = 2 → ∃ u, exec (.vectorGroupDone ⟨t, b⟩) s = .next u ∧ (∀ v, v ≠ t → u.tile v = s.tile v) ∧
      (u.tile t).accs = T.accs ∧
      (∀ j, 64 * o.done ≤ j → j < 64 * o.done + min 64 (8 * o.d.n - 64 * o.done) →
        elemAt (u.tile t) o.d 4 j = (elemAt T o.a 4 j + elemAt T o.b 4 j) % 2 ^ 32) ∧
      PadOutside (32 * o.d.lo + 256 * o.done) (4 * min 64 (8 * o.d.n - 64 * o.done)) T (u.tile t))

/-- Rounding a magnitude to p + 1 significant bits to nearest, ties to even: the kept integer is within half a step of the value,
and on a tie its lowest bit is zero. Stochastic rounding of a value between q and q + 1 steps: with F = ⌊(v − lo) / (hi − lo) ×
2^16⌋ on the number line, the result is the upper neighbour exactly when u is below F, for positive and negative values alike; a
value on the grid is unchanged. Reading and writing W16 and F32: a finite value with a non-zero exponent field and an infinity come
back as they were, exponent field 0 reads as a zero of its sign, and every NaN comes back as the canonical one. -/
def Obligations.RoundingAndFormats : Prop :=
  ((∀ (p : Nat) (n : Bool) (m : Nat) (e : Int), m ≠ 0 →
    (Nat.log2 m ≤ p → roundMag p .rne n m e = .fin n m e) ∧
    (p < Nat.log2 m → ∃ q, roundMag p .rne n m e = .fin n q (e + (Nat.log2 m - p : Nat)) ∧
      2 * (q * 2 ^ (Nat.log2 m - p)) ≤ 2 * m + 2 ^ (Nat.log2 m - p) ∧
      2 * m ≤ 2 * (q * 2 ^ (Nat.log2 m - p)) + 2 ^ (Nat.log2 m - p) ∧
      (2 * (q * 2 ^ (Nat.log2 m - p)) = 2 * m + 2 ^ (Nat.log2 m - p) ∨
        2 * m = 2 * (q * 2 ^ (Nat.log2 m - p)) + 2 ^ (Nat.log2 m - p) → q % 2 = 0))) ∧
  (∀ (u q r s : Nat), r < 2 ^ s →
    (r = 0 → ∀ n, roundUp (.sr u) n q r s = false) ∧
    (0 < r → (roundUp (.sr u) false q r s = true ↔ u < r * 2 ^ 16 / 2 ^ s)) ∧
    (0 < r → (roundUp (.sr u) true q r s = false ↔ u < (2 ^ s - r) * 2 ^ 16 / 2 ^ s)))) ∧
  (∀ p, p = 7 ∨ p = 23 → ∀ b, b < 2 ^ (p + 9) →
    (b / 2 ^ p % 256 ≠ 0 → b / 2 ^ p % 256 ≠ 255 → (Fl.decode p b).encode p = b) ∧
    (b / 2 ^ p % 256 = 255 → b % 2 ^ p = 0 → (Fl.decode p b).encode p = b) ∧
    (b / 2 ^ p % 256 = 255 → b % 2 ^ p ≠ 0 → (Fl.decode p b).encode p = if p = 7 then 0x7FC0 else 0x7FC00000) ∧
    (b / 2 ^ p % 256 = 0 → (Fl.decode p b).encode p = b / 2 ^ (p + 8) * 2 ^ (p + 8)))

/-! ### The fabric -/

/-- Injection moves one flit of the operation in front into the local input FIFO while it has room, no hold is asserted and every earlier
STC.M is done; a management flit likewise, in issue order, under a hold or behind a notice that is not due yet fault reports alone
(R61, R119, R186). One clk of a router output with a single candidate moves its flit to the neighbour's opposite input, at the flit's own
tile into the delivery FIFO, or a column line from the rim to the tier port; no other tile changes. A flit for a LOST region is discarded
and counted, and its partition is frozen for the fault (R232); one whose way leads through a lost region waits (R417). At a rim gate with room the lines of the page moves and of the Roundhouse
enter in turn (R341).
What it says of choices of the model follows the log: entries 70, 109. -/
def Obligations.FlitsMove : Prop :=
  (∀ (s : State) (t : TileAddr) (b : BankNote), let T := s.tile t
    (∀ o q, T.sendQ = o :: q → held s t = false → (T.fifoOf .loc o.chan).length < fifoDepth o.chan → T.inOrder o.id = true →
      ∃ u f, exec (.sendInject ⟨t, b⟩) s = .next u ∧ OnlyTile t s u ∧ f.src = .tile t ∧ f.dst = o.dst ∧ f.rim = false ∧
        (u.tile t).ctr = (T.noted b).ctr ∧
        (u.tile t).fifoOf .loc o.chan = T.fifoOf .loc o.chan ++ [f] ∧
        (o.step = true → f.body = .step (T.granule o.base) (T.granule (o.base + 1))) ∧
        (o.step = false → o.stage = 0 → f.body = if o.desc then .descHead o.n else .sendHead o.g0 o.n) ∧
        (o.step = false → ∀ k, o.stage = k + 1 → 2 * k + 2 ≤ o.n →
          f.body = .payload [T.granule (o.base + 2 * k), T.granule (o.base + 2 * k + 1)]) ∧
        (o.lastFlit = true → (u.tile t).sendQ = q ∧ ∀ e ∈ (u.tile t).sb, e.id ≠ o.id) ∧
        (o.lastFlit = false → (u.tile t).sendQ = { o with stage := o.stage + 1 } :: q ∧ (u.tile t).sb = T.sb) ∧
        (u.tile t).pad = T.pad) ∧
    (∀ f q, T.mgmtQ = f :: q → held s t = false → f.isDue = false → (T.fifoOf .loc .mgmt).length < 2 →
      ∃ u, exec (.mgmtInject t) s = .next u ∧ OnlyTile t s u ∧ (u.tile t).mgmtQ = q ∧
        (u.tile t).fifoOf .loc .mgmt = T.fifoOf .loc .mgmt ++ [f]) ∧
    (∀ f q, T.mgmtQ = f :: q → held s t = true ∨ f.isDue = true → (∀ x ∈ T.mgmtQ, x.isFault = false) →
      exec (.mgmtInject t) s = .next s) ∧
    (∀ f q, T.mgmtQ = f :: q → f.isFault = true → (T.fifoOf .loc .mgmt).length < 2 →
      ∃ u, exec (.mgmtInject t) s = .next u ∧ OnlyTile t s u ∧ (u.tile t).mgmtQ = q ∧
        (u.tile t).fifoOf .loc .mgmt = T.fifoOf .loc .mgmt ++ [f])) ∧
  (∀ (s : State) (t : TileAddr) (out p : Port) (c : Chan) (f : Flit) (q : List Flit), let T := s.tile t
    T.skid = [] → (s.partOf t).rimOut = [] → (s.partOf t).pageOut = [] → (s.partOf t).weightOut = [] → T.fifoOf p c = f :: q →
    (∀ v b, lostHead s t = none → pickChan s t out = some (c, [p], b) → t ≠ f.dst → neighbour t out = some v →
      ∃ u, exec (.flitHop t out) s = .next u ∧ OnlyTiles s u ∧
        (u.tile v).fifoOf (farPort out) c = (s.tile v).fifoOf (farPort out) c ++ [f] ∧ (u.tile t).fifoOf p c = q ∧
        ∀ x, x ≠ t → x ≠ v → u.tile x = s.tile x) ∧
    (∀ b a, lostHead s t = none → pickChan s t out = some (c, [p], b) → t = f.dst → handedOver s t f = false → f.body = .line a →
      ∃ u, exec (.flitHop t out) s = .next u ∧ (∀ x, x ≠ t → u.tile x = s.tile x) ∧ (u.tile t).low = T.low ++ [a] ∧
        (u.tile t).fifoOf p c = q) ∧
    (∀ b, lostHead s t = none → pickChan s t out = some (c, [p], b) → t = f.dst → handedOver s t f = false → f.isLine = false →
      ∃ u, exec (.flitHop t out) s = .next u ∧ OnlyTile t s u ∧ (u.tile t).deliverOf c = T.deliverOf c ++ [f] ∧
        (u.tile t).fifoOf p c = q) ∧
    (lostHead s t = some (p, c) →
      ∃ u, exec (.flitHop t out) s = .next u ∧ (∀ x, x ≠ t → u.tile x = s.tile x) ∧ (u.tile t).fifoOf p c = q ∧
        (u.tile t).counter ctrRouteDrop = satAdd32 (T.counter ctrRouteDrop) 1 ∧
        ∀ k, T.part = some k → s.sufinDown = false → (s.part k.val).loaded = true → (s.part k.val).rstate = 0 →
          (u.part k.val).frozen = true ∧ (u.part k.val).hsFault = true) ∧
    (∀ v, t ≠ f.dst → neighbour t out = some v → (s.region (regionOf v)).lostBy ≠ 0 → canTake s t out c f = false)) ∧
  (∀ (P : Partition) (f g : Flit) (fs gs : List Flit),
    (P.pageOut = [] → P.weightOut = [] → nextLine P = none) ∧
    (P.pageOut = f :: fs → (P.weightOut = [] ∨ P.lineTurn = false) →
      nextLine P = some (f, { P with pageOut := fs, lineTurn := true, lineSent := P.lineSent ++ [f] })) ∧
    (P.weightOut = g :: gs → (P.pageOut = [] ∨ P.lineTurn = true) →
      nextLine P = some (g, { P with weightOut := gs, lineTurn := false, lineSent := P.lineSent ++ [g] }))) ∧
  (∀ (s : State) (t : TileAddr) (p : PartId) (f : Flit) (P' : Partition), let T := s.tile t
    let P := s.part p.val
    T.part = some p → t = P.gate → P.frozen = false → P.rimOut = [] → T.room (outwardPort t) .flow = true → nextLine P = some (f, P') →
      admitRim s t = (s.setPart p.val P').mapTile t fun T => T.pushFifo (outwardPort t) .flow f)

/-- Inside a region and with no detour a flit goes along its row first, east or west, then along its column; at its tile it leaves
by the local port, or by the rim when it is rim-bound; an entry other than XY names the output (R224, R225). Following the default
route reaches the destination: every hop brings a flit one tile nearer. -/
def Obligations.RoutesArrive : Prop :=
  (∀ (s : State) (t : TileAddr) (f : Flit),
    (t = f.dst → route s t f = if f.rim then .rim else .out .loc) ∧
    (t ≠ f.dst → FMap.get 0 (s.region (regionOf t)).routes (regionOf f.dst) = 0 →
      (t.col < f.dst.col → route s t f = .out .east) ∧ (f.dst.col < t.col → route s t f = .out .west) ∧
      (t.col = f.dst.col → t.row < f.dst.row → route s t f = .out .north) ∧
      (t.col = f.dst.col → f.dst.row < t.row → route s t f = .out .south)) ∧
    (∀ k o, (k, o) ∈ [(1, Port.north), (2, .east), (3, .south), (4, .west)] → t ≠ f.dst →
      FMap.get 0 (s.region (regionOf t)).routes (regionOf f.dst) = BitVec.ofNat 3 k → route s t f = .out o) ∧
    (t ≠ f.dst → FMap.get 0 (s.region (regionOf t)).routes (regionOf f.dst) = 5 → route s t f = .lost)) ∧
  (∀ (s : State) (t : TileAddr) (f : Flit), t ≠ f.dst →
    FMap.get 0 (s.region (regionOf t)).routes (regionOf f.dst) = 0 →
    ∃ p v, route s t f = .out p ∧ neighbour t p = some v ∧
      (Int.natAbs ((v.col.val : Int) - f.dst.col.val) + Int.natAbs ((v.row.val : Int) - f.dst.row.val)) + 1 =
        Int.natAbs ((t.col.val : Int) - f.dst.col.val) + Int.natAbs ((t.row.val : Int) - f.dst.row.val))

/-- A head flit inside an open window is arriving there; outside every window the tile faults with WIN_FAULT, ext set, and drops the
SEND; at the rim gate one for the outbound range is collected, and waits while a whole SEND is not yet taken for its port (R382, R383);
a DESC head announces its descriptors (R148, R204). A payload flit of an arriving SEND writes its granules and nothing else in
the scratchpad, and adds 32 bytes a granule to the window's counter, saturating; the flit that fills the window latches wire 6
(R135, R148, R200).
What it says of choices of the model follows the log: entry 22. -/
def Obligations.HeadsAndPayloadsArrive : Prop :=
  (∀ (s : State) (t : TileAddr) (c : Chan) (f : Flit) (q : List Flit), let T := s.tile t
    T.deliverOf c = f :: q →
    (∀ g0 n w, f.body = .sendHead g0 n → f.src ≠ .signalBox → g0 < 0x3000 → T.windowFor g0 n = some w →
      ∃ u, exec (.sendHeadArrival t c) s = .next u ∧ OnlyTile t s u ∧
        u.tile t = { T.setDeliver c q with
          arriving := T.arriving ++ [{ src := f.src, chan := c, win := w, next := g0, left := n }] } ∧
        (T.window w).opened = true ∧ (T.window w).range.lo ≤ g0 ∧
        g0 + n ≤ (T.window w).range.lo + (T.window w).range.n) ∧
    (∀ g0 n, f.body = .sendHead g0 n → f.src ≠ .signalBox → g0 < 0x3000 → T.windowFor g0 n = none →
      ∃ u, exec (.sendHeadArrival t c) s = .next u ∧ OnlyTile t s u ∧ (u.tile t).halted = true ∧ (u.tile t).pad = T.pad ∧
        (T.faultInfo = 0 → (u.tile t).faultInfo = faultWord codeWin 0 true T.pc)) ∧
    (∀ g0 n, f.body = .sendHead g0 n → f.src ≠ .signalBox → 0x3000 ≤ g0 → t = (s.partOf t).gate →
      ((∃ o ∈ T.outbound, o.got.length = o.n) → exec (.sendHeadArrival t c) s = .next s) ∧
      ((∀ o ∈ T.outbound, o.got.length ≠ o.n) →
        ∃ u, exec (.sendHeadArrival t c) s = .next u ∧ OnlyTile t s u ∧
          u.tile t = { T.setDeliver c q with outbound := T.outbound ++ [{ src := f.src, chan := c, g0 := g0, n := n }] })) ∧
    (∀ n, f.body = .descHead n →
      ∃ u, exec (.sendHeadArrival t c) s = .next u ∧ OnlyTile t s u ∧
        u.tile t = { T.setDeliver c q with descIn := T.descIn ++ [{ src := f.src, chan := c, left := n }] })) ∧
  (∀ (s : State) (t : TileAddr) (c : Chan) (b : BankNote) (f : Flit) (q : List Flit) (gs : List Granule) (a : Arriving), let T := s.tile t
    T.deliverOf c = f :: q → f.body = .payload gs → T.arriving.find? (fun a => a.src == f.src && a.chan == c) = some a →
    a.drop = false → T.nap.rest = .awake → (addArrive (T.arrived a.win) gs.length).toNat ≤ (T.window a.win).expected →
    ∃ u, exec (.payloadDelivery ⟨t, b⟩ c) s = .next u ∧ OnlyTile t s u ∧ (u.tile t).deliverOf c = q ∧
      (∀ k, k < gs.length → (u.tile t).granule (a.next + k) = gs.getD k 0) ∧
      PadOutside (32 * a.next) (32 * gs.length) T (u.tile t) ∧
      (u.tile t).arrived a.win = BitVec.ofNat 24 (min (2 ^ 24 - 1) ((T.arrived a.win).toNat + 32 * gs.length)) ∧
      (∀ n, n ≠ a.win → (u.tile t).arrived n = T.arrived n) ∧
      (u.tile t).wakeLatch = (if (T.window a.win).opened = true ∧ (T.arrived a.win).toNat < (T.window a.win).expected ∧
        (addArrive (T.arrived a.win) gs.length).toNat = (T.window a.win).expected then T.wakeLatch ||| 64 else T.wakeLatch))

/-- Credits add up to 255, the excess lost and counted; a wake latches its wire; a step notice enters a mailbox with room and
latches wire 7; descriptors enter a queue with room for all of their flit's. -/
def Obligations.ManagementFlitsAreDelivered : Prop :=
  ∀ (s : State) (t : TileAddr) (f : Flit) (q : List Flit), let T := s.tile t
    (T.deliverOf .mgmt = f :: q → ∀ c n, f.body = .credit c n → (T.creditOf c).toNat + n ≤ 255 →
      ∃ u, exec (.creditDelivery t) s = .next u ∧ OnlyTile t s u ∧
        u.tile t = (T.setDeliver .mgmt q).setCredit c (BitVec.ofNat 8 ((T.creditOf c).toNat + n))) ∧
    (T.deliverOf .mgmt = f :: q → ∀ c n, f.body = .credit c n → 255 < (T.creditOf c).toNat + n →
      ∃ u, exec (.creditDelivery t) s = .next u ∧ (u.tile t).creditOf c = 255 ∧
        (u.tile t).counter ctrCredSat = satAdd32 (T.counter ctrCredSat) ((T.creditOf c).toNat + n - 255)) ∧
    (T.deliverOf .mgmt = f :: q → T.nap.rest = .awake → ∀ w, f.body = .wake w →
      ∃ u, exec (.wakeDelivery t) s = .next u ∧ OnlyTile t s u ∧
        u.tile t = { T.setDeliver .mgmt q with wakeLatch := T.wakeLatch ||| BitVec.ofNat 8 (2 ^ w) }) ∧
    (T.deliverOf .mgmt = f :: q → T.nap.rest = .awake → T.mailbox.length < 2 → ∀ x y, f.body = .step x y →
      ∃ u, exec (.stepNoticeDelivery t) s = .next u ∧ OnlyTile t s u ∧
        u.tile t = { T.setDeliver .mgmt q with mailbox := T.mailbox ++ [(x, y)], wakeLatch := T.wakeLatch ||| 128 }) ∧
    (T.deliverOf .mgmt = f :: q → 2 ≤ T.mailbox.length → (∃ x y, f.body = .step x y) →
      exec (.stepNoticeDelivery t) s = .next s) ∧
    (∀ c g r gs, T.descPayload c = some (g, r, gs) → T.descQ.length + gs.length ≤ 32 →
      ∃ u, exec (.descriptorDelivery t c) s = .next u ∧ OnlyTile t s u ∧ (u.tile t).descQ = T.descQ ++ gs ∧
        (u.tile t).deliverOf c = r ∧ (u.tile t).pad = T.pad)

/-! ### Holds, barriers and rest -/

/-- The hold root keeps the maximum lateness it has heard of, in serial order, a lost region's tiles being in no tree (R418); a tile keeps the latest maximum driven to it; a
HOLDREQ that has run out ends; a partition start sets the tile going at index 0. The root of a barrier copies the sense that all its
members hold into the release sense; while they differ nothing changes (R211). The stager takes exits before entries, one step in 6 clk:
when an entry's sixteenth step is over the tile is asleep, when an exit's last one is over its SLEEP ends; a SPIN whose limit has passed
ends with bit 31 set and no wire (R137, R207–R209).
What it says of choices of the model follows the log: entries 3, 20. -/
def Obligations.HoldsBarriersAndRest : Prop :=
  ((∀ (s : State) (p : PartId) (t : TileAddr), let T := s.tile t
    let P := s.part p.val
    ((s.region (regionOf t)).lostBy ≠ 0 → ∀ l, exec (.holdRootMaximum p t l) s = .next s) ∧
    (∀ l, T.part = some p → (s.region (regionOf t)).lostBy = 0 → notAhead l T.late = true → serialGt l P.rootMax = true →
      ∃ u, exec (.holdRootMaximum p t l) s = .next u ∧ OnlyPart p.val s u ∧
        u.part p.val = { P with rootMax := l, holdClk := P.holdClk + (l - P.rootMax).setWidth 64 }) ∧
    (∀ m, T.part = some p → notAhead m P.rootMax = true → serialGt m T.maxIn = true →
      ∃ u, exec (.holdMaxArrival t m) s = .next u ∧ OnlyTile t s u ∧ u.tile t = { T with maxIn := m }) ∧
    (T.holdreqOn = true → T.holdreq = 0 →
      ∃ u, exec (.holdreqEnd t) s = .next u ∧ OnlyTile t s u ∧ u.tile t = { T with holdreqOn := false, holdOut := false }) ∧
    (T.starting = true →
      ∃ u, exec (.partitionStartArrival t) s = .next u ∧ OnlyTile t s u ∧
        u.tile t = { T with starting := false, halted := false, pc := 0, sigma := 0, due := (T.plan.getD 0 0).toNat })) ∧
  (∀ (s : State) (p : PartId) (b : Fin 32), let P := s.part p.val
    (barMembers s p b.val ≠ [] → ∀ v : Bool, (∀ T ∈ barMembers s p b.val, T.barSense.getLsbD b.val = v) →
      ∃ u, exec (.barrierRootUpdate p b) s = .next u ∧ OnlyPart p.val s u ∧
        u.part p.val = { P with release := (u.part p.val).release } ∧
        ∀ k, k < 32 → (u.part p.val).release.getLsbD k = if k = b.val then v else P.release.getLsbD k) ∧
    ((∃ T ∈ barMembers s p b.val, ∃ U ∈ barMembers s p b.val, T.barSense.getLsbD b.val ≠ U.barSense.getLsbD b.val) →
      exec (.barrierRootUpdate p b) s = .next s))) ∧
  (∀ (s : State) (r : RegionId) (t : TileAddr) (rest : List TileAddr), let T := s.tile t
    let R := s.region r.val
    let granted := fun (u : State) (n : Nat) => u = { s with tiles := u.tiles, regions := u.regions } ∧
      (∀ v, v ≠ t → u.tile v = s.tile v) ∧ (∀ q, q ≠ r.val → u.region q = s.region q) ∧ u.region r.val = { R with gap := 6 } ∧
      u.tile t = { T with nap := { T.nap with steps := n } }
    (R.gap ≠ 0 → exec (.stagerStep r) s = .next s) ∧
    (R.gap = 0 → R.exits = [] → R.entries = t :: rest → T.nap.steps < 16 →
      ∃ u, exec (.stagerStep r) s = .next u ∧ granted u (T.nap.steps + 1)) ∧
    (R.gap = 0 → R.exits = t :: rest → T.nap.steps ≠ 0 → (∀ e ∈ R.entries.head?, (s.tile e).nap.steps < 16) →
      ∃ u, exec (.stagerStep r) s = .next u ∧ granted u (T.nap.steps - 1)) ∧
    (R.exits = [] → R.entries = t :: rest → T.nap.steps = 16 →
      stagerClose s r.val = (s.setRegion r.val { R with entries := rest }).setTile t { T with nap := { T.nap with rest := .asleep } }) ∧
    (R.exits = t :: rest → T.nap.steps = 0 → R.entries = [] → let u := stagerClose s r.val
      u.region r.val = { R with exits := rest } ∧ (u.tile t).nap = {} ∧
        (u.tile t).wakeLatch = T.wakeLatch &&& ~~~T.nap.mask ∧ (u.tile t).pad = T.pad) ∧
    (T.nap.rest = .spin → T.nap.limit ≠ 0 → T.nap.limit ≤ T.nap.clk → T.wakeLatch &&& T.nap.mask = 0 →
      ∃ u, exec (.sleepLimitExpire t) s = .next u ∧ OnlyTile t s u ∧ (u.tile t).nap = {} ∧
        (u.tile t).wakeLatch = T.wakeLatch ∧
        ∀ n, (u.tile t).sreg n = if n = T.nap.sd ∧ n ≠ 0 then 0x80000000 else T.sreg n))

/-! ### Request rows -/

/-- Host writes of ROW_STATE (Table 8.7): with the row in reach, the generation current and the row in the transition's first state,
a claim, commit, withdrawal or cancel changes the row's registers it names and no other row; a release frees the row with gen + 1 at
once, or when its last step has left; any other write is ignored and raises ROW_WRITE_REJECT (R260–R262, R288); in recovery, where the
page is not shown, it has no effect (R465, R481). The end of a prompt
copy, a passed deadline and 80 ms without a ride: the row's fields they set, their counters and events, and nothing else (R263,
R272, R275). -/
def Obligations.HostsAndClocksMoveRows : Prop :=
  (∀ (s : State) (w : WinId) (r : RowId) (gen : BitVec 16), let x := s.row r.val
    let freed := fun (u : State) => u = { s with tiles := u.tiles, parts := u.parts, rows := u.rows, headers := u.headers, host := u.host } ∧
      OtherRows r.val s u ∧ OtherParts x.part s u ∧ ((∀ q ∈ (s.part x.part).withheld, q.wipe = false) → u.tiles = s.tiles) ∧
      (u.row r.val).state = 0 ∧ (u.row r.val).gen = x.gen + 1 ∧ (u.row r.val).log = [] ∧
      (u.row r.val).pages = { acks := x.pages.acks } ∧ (u.row r.val).runs = [] ∧ (u.row r.val).slots = 0 ∧
      (u.row r.val).want = none ∧ (u.row r.val).hold = none ∧ (u.row r.val).ctrl = x.ctrl ∧ (u.row r.val).owner = x.owner
    (s.recovery = true → ∀ c ∈ [Instr.rowClaim w r gen, .rowCommit w r gen, .rowReleaseUnsubmitted w r gen, .rowWithdraw w r gen,
      .rowCancel w r gen, .rowRelease w r gen], exec c s = .next s) ∧
    (s.recovery = false → reaches s w.val r.val = true → x.gen = gen →
      (x.state = 0 → ∃ u, exec (.rowClaim w r gen) s = .next u ∧ OnlyRow r.val s u ∧
        u.row r.val = { x with
          state := 1, owner := w.val, refusal := 0, adaptGen := 0, genLen := 0, lastSeq := 0, pageRoot := 0, weightGen := 0,
          doneCode := 0, recovered := false, overdue := false, missed := false, acceptTime := 0, doneTime := 0 }) ∧
      (x.state = 1 → ∃ u, exec (.rowCommit w r gen) s = .next u ∧ OtherRows r.val s u ∧
        u = { s with rows := u.rows, commits := s.commits + 1 } ∧
        u.row r.val = { x with state := 2, fetch := .running, log := [], commitNo := s.commits, withdraw := false }) ∧
      (x.state = 1 → ∃ u, exec (.rowReleaseUnsubmitted w r gen) s = .next u ∧ freed u) ∧
      (x.state = 2 → ∃ u, exec (.rowWithdraw w r gen) s = .next u ∧ OnlyRow r.val s u ∧
        u.row r.val = { x with withdraw := true, fetch := .idle }) ∧
      ((x.state = 3 ∨ x.state = 4 ∨ x.state = 5 ∨ x.state = 9) → ∃ u, exec (.rowCancel w r gen) s = .next u ∧ OnlyRow r.val s u ∧
        u.row r.val = { x with cancel := true }) ∧
      ((x.state = 7 ∨ x.state = 8) → (s.part x.part).inFlight r.val = true → ∃ u, exec (.rowRelease w r gen) s = .next u ∧
        OnlyRow r.val s u ∧ u.row r.val = { x with releasing := true }) ∧
      ((x.state = 7 ∨ x.state = 8) → (s.part x.part).inFlight r.val = false → ∃ u, exec (.rowRelease w r gen) s = .next u ∧ freed u)) ∧
    (∀ c, s.recovery = false → (c = .rowClaim w r gen ∧ x.state ≠ 0) ∨ (c = .rowCommit w r gen ∧ x.state ≠ 1) ∨
        (c = .rowReleaseUnsubmitted w r gen ∧ x.state ≠ 1) ∨ (c = .rowWithdraw w r gen ∧ x.state ≠ 2) ∨
        (c = .rowCancel w r gen ∧ x.state ≠ 3 ∧ x.state ≠ 4 ∧ x.state ≠ 5 ∧ x.state ≠ 9) ∨
        (c = .rowRelease w r gen ∧ x.state ≠ 7 ∧ x.state ≠ 8) ∨
        ((reaches s w.val r.val = false ∨ x.gen ≠ gen) ∧
          c ∈ [.rowClaim w r gen, .rowCommit w r gen, .rowReleaseUnsubmitted w r gen, .rowWithdraw w r gen, .rowCancel w r gen,
               .rowRelease w r gen]) →
      ∃ u, exec c s = .next u ∧ u = { s with headers := u.headers, host := u.host } ∧ Events s u (evt w.val pageSig 1))) ∧
  (∀ (s : State) (r : RowId), let x := s.row r.val
    (x.state = 2 → x.fetch = .running →
      (∀ toks, toks.length = x.promptLen.toNat → ∃ u, exec (.promptCopyDone r true toks) s = .next u ∧ OnlyRow r.val s u ∧
        u.row r.val = { x with fetch := .done, log := toks.map fun t => (t, 0) }) ∧
      (∀ toks, ∃ u, exec (.promptCopyDone r false toks) s = .next u ∧ OnlyRow r.val s u ∧ u.row r.val = { x with fetch := .failed })) ∧
    (x.deadline ≠ 0 → x.deadline.toNat < s.ns → x.active = true ∨ x.state = 2 → x.missed = false →
      ∃ u, exec (.deadlineMiss r) s = .next u ∧ OtherRows r.val s u ∧ u.row r.val = { x with missed := true } ∧
        u = { s with rows := u.rows, parts := u.parts, headers := u.headers, host := u.host } ∧
        Counted x.part ctrMiss 1 s u ∧ Events s u (evt x.owner pageSig 3)) ∧
    (∀ t0, x.since = some t0 → x.active = true → x.overdue = false → t0 + 80000000 ≤ s.ns →
      ∃ u, exec (.rowOverdue r) s = .next u ∧ OtherRows r.val s u ∧
        u.row r.val = { x with overdue := true, overdueAt := t0 + 80000000 } ∧
        u = { s with rows := u.rows, parts := u.parts } ∧ Counted x.part ctrOverdue 1 s u) ∧
    (s.ns ≤ x.deadline.toNat → exec (.deadlineMiss r) s = .next s))

/-- Speculation: a REQ to a draft row that it fits voids the log beyond b − 1 − n_new and logs the new tokens; a RUNNING row opens the
request, one that is not RUNNING yet answers with an empty PROP, and so does a row that cannot go on, which takes the tokens alone where
its drafts would pass MAX_LEN; positions whose tokens stand need no further chunk, and the notices still to come of steps closed before
are to be dropped. The PROP that answers the open REQ is kept and another discarded; a wait of wait_ns nanoseconds of SPEC ends it,
counted, with its event; an END completes the draft row with code 3, or lets it drain. A row that this makes ready starts its wait (R272,
R285, R286).
What it says of choices of the model follows the log: entry 85. -/
def Obligations.SpeculativeMessages : Prop :=
  ∀ (s : State) (p : PartId) (m : SpecMsg), let d := s.row m.draftRow
    let x := s.row m.mainRow
    let fits := m.tokens.length ≤ m.b ∧ m.b - m.tokens.length ≤ d.log.length ∧ m.b ≤ d.maxLen.toNat
    let early := d.state = 3 ∨ d.state = 4 ∨ (d.state = 2 ∧ d.fetch = .done)
    let log := d.log.take (m.b - m.tokens.length) ++ m.tokens.map fun t => (t, BitVec.ofNat 32 s.ns)
    let stands := fun (top n : Nat) => n ≤ top ∧ ∀ i, i < n → (d.log[i]?).map (·.1) = (log[i]?).map (·.1)
    let took := fun (v : Row) => stands d.fed v.fed ∧ stands d.closedTo v.closedTo ∧ v = { d with
      log := log, genLen := m.b - d.promptLen.toNat, hold := none, fed := v.fed, closedTo := v.closedTo
      stale := d.stale + d.notices, staleTo := (s.part p.val).stepNo - 1, notices := 0 }
    let empty := fun (v : State) => if m.k = 0 then v else sendSpec v p.val 1 2
      { k := 0, mainRow := m.mainRow, draftRow := m.draftRow, b := m.b, tokens := [] }
    let begins := fun (a b : Option Nat) => b = a ∨ (a = none ∧ b = some s.ns)
    (d.draft = true → d.part = p.val → fits → d.state = 5 →
      ∃ u v, exec (.specReq p m) s = .next u ∧ took v ∧ OtherRows m.draftRow s u ∧ begins d.since (u.row m.draftRow).since ∧
        u.row m.draftRow = { v with
          want := some (m.b, if m.b + m.k ≤ d.maxLen.toNat then m.k else 0, m.mainRow), since := (u.row m.draftRow).since } ∧
        u = { (if m.b + m.k ≤ d.maxLen.toNat then s else empty s) with rows := u.rows }) ∧
    (d.draft = true → d.part = p.val → fits → early →
      ∃ v, took v ∧ exec (.specReq p m) s = .next (empty (s.setRow m.draftRow v))) ∧
    (d.draft = true → d.part = p.val → ¬ fits ∨ (¬ early ∧ d.state ≠ 5) → exec (.specReq p m) s = .next (empty s)) ∧
    (∀ t0, x.part = p.val → x.asked = some (m.b, t0) →
      ∃ u, exec (.specProp p m) s = .next u ∧ OnlyRow m.mainRow s u ∧ begins x.since (u.row m.mainRow).since ∧
        u.row m.mainRow = { x with
          asked := none, prop := some (m.tokens.take m.k), since := (u.row m.mainRow).since
          working := if x.working = some m.b then none else x.working }) ∧
    (x.part = p.val → x.asked.map (·.1) ≠ some m.b →
      ∃ u, exec (.specProp p m) s = .next u ∧ OnlyRow m.mainRow s u ∧
        u.row m.mainRow = { x with working := if x.working = some m.b then none else x.working }) ∧
    (x.part ≠ p.val → exec (.specProp p m) s = .next s) ∧
    (d.draft = true → d.part = p.val → d.active = true → (s.part p.val).inFlight m.draftRow = false →
      ∃ u, exec (.specEnd p m) s = .next u ∧ OtherRows m.draftRow s u ∧ Events s u (evt d.owner pageSig 2) ∧
        u = { s with rows := u.rows, headers := u.headers, host := u.host } ∧
        u.row m.draftRow = { d with
          state := 7, cancelAt := d.lastSeq, doneCode := 3, doneTime := s.ns, finish := none, since := none, want := none }) ∧
    (d.draft = true → d.part = p.val → d.active = true → (s.part p.val).inFlight m.draftRow = true →
      ∃ u, exec (.specEnd p m) s = .next u ∧ OnlyRow m.draftRow s u ∧
        u.row m.draftRow = { d with state := 6, cancelAt := d.lastSeq, want := none }) ∧
    (∀ r : RowId, ∀ b t0, (s.row r.val).asked = some (b, t0) → t0 + (s.part (s.row r.val).part).waitNs ≤ s.ns →
      ∃ u, exec (.specTimeout r) s = .next u ∧ OtherRows r.val s u ∧
        u.row r.val = { s.row r.val with asked := none, prop := none, since := (u.row r.val).since } ∧
        begins (s.row r.val).since (u.row r.val).since ∧
        u = { s with rows := u.rows, parts := u.parts, headers := u.headers, host := u.host } ∧
        Counted (s.row r.val).part ctrSpecTimeout 1 s u ∧ Events s u (evt (s.row r.val).owner pageSig 7))

/-! ### Steps -/

/-- A partition held for recovery runs no boundary. An idle boundary runs the head of a boundary and
nothing more; a step boundary that may close a
manifest closes one when a ready row can ride: step number, close time, one bucket, at most rows_max, chunks_max and 8 entries, counted
(R21, R267, R268, R274). An idle boundary with no row, generation or slot to act on applies the pending shadow of SPEC, counts it in
CFG_GEN and ends the request for it; nothing else changes (R21 step 1, R490).
What it says of choices of the model follows the log: entries 67, 85, 88. -/
def Obligations.BoundariesCloseManifests : Prop :=
  (∀ (s : State) (p : PartId), let P := s.part p.val
    let s1 := boundaryHead s p.val
    let P1 := s1.part p.val
    let s2 := stallRows s1 p.val
    (P.rstate = 1 ∨ P.rstate = 2 → exec (.stepBoundary p) s = .next s ∧ exec (.idleBoundary p) s = .next s) ∧
    (P.rstate = 0 ∨ P.rstate = 3 → exec (.idleBoundary p) s = .next s1) ∧
    (P.rstate = 0 ∨ P.rstate = 3 → closes s1 p.val = false → exec (.stepBoundary p) s = .next s1) ∧
    (P.rstate = 0 ∨ P.rstate = 3 → closes s1 p.val = true → choose s2 p.val = none → exec (.stepBoundary p) s = .next s2) ∧
    (∀ b gs cs, P.rstate = 0 ∨ P.rstate = 3 → closes s1 p.val = true → choose s2 p.val = some (b, gs, cs) →
      gs.length ≤ P1.rowsMax ∧ cs.length ≤ P1.chunksMax ∧ gs.length + cs.length ≤ 8 ∧ (gs ≠ [] ∨ cs ≠ []) ∧ (∀ g ∈ gs, g.2.bucket = b) ∧
      (∀ c ∈ cs, c.2.bucket ≤ b) ∧
      ∃ u m, exec (.stepBoundary p) s = .next u ∧ (u.part p.val).stepNo = P1.stepNo + 1 ∧
        (u.part p.val).inflight = P1.inflight ++ [{ man := m }] ∧ (u.part p.val).firstAfter = false ∧
        m.step = P1.stepNo ∧ m.close = s1.ns ∧ m.bucket = b ∧ m.first = P1.firstAfter ∧
        m.entries.map (·.row) = (gs ++ cs).map (·.1.1) ∧ m.chunks.length = cs.length ∧
        (u.part p.val).counter ctrSteps = (P1.count ctrSteps 1).counter ctrSteps)) ∧
  (∀ (s : State) (p : PartId) (v : Word), let P := s.part p.val
    P.rstate = 0 → P.specShadow = some v → s.rowsOf p.val = [] → P.copy0 = none → P.copy1 = none → P.slots = [] → P.withheld = [] →
    (∀ kv ∈ s.rings, kv.2.shadow = none) → s.house.log.shadow = none →
    ∃ u, exec (.idleBoundary p) s = .next u ∧ u = { s with parts := u.parts, cfgGen := u.cfgGen } ∧ OtherParts p.val s u ∧
      u.part p.val = { P with spec := v, specShadow := none, asked := false } ∧
      ∀ g, FMap.get 0 u.cfgGen g = if g = pagePrt + p.val then FMap.get 0 s.cfgGen g + 1 else FMap.get 0 s.cfgGen g)

/-- A step credit sends the first manifest not yet sent: the body to the entry tile and the embedding tiles, the notice last, one
credit spent; in exact mode the next one waits out the step interval (R24). A credit with idx 15 adds step credits, at most two held; one with idx 14 retires the oldest step sent (R268–R270,
R403, log entry 56).
What it says of choices of the model follows the log: entries 56, 114. -/
def Obligations.ManifestsAndCredits : Prop :=
  ∀ (s : State) (p : PartId), let P := s.part p.val
    (∀ i x, P.credits ≠ 0 → P.rstate = 0 → P.frozen = false → P.sendGap = 0 → nextUnsent s p.val P.inflight = some (i, x) →
      ∃ u, exec (.manifestSend p) s = .next u ∧ OnlyPart p.val s u ∧ ∃ n : Chan × Flit,
        u.part p.val = { (if x.again then P.count ctrReread 1 else P) with
          credits := P.credits - 1
          sendGap := P.stepInterval
          inflight := P.inflight.set i { x with sent := true }
          rimOut := P.rimOut ++ ((P.entry :: P.embedding).flatMap fun t => copyFlits t (granulesOf x.man.body.length x.man.body)) ++ [n] } ∧
        n.1 = .mgmt ∧ n.2.dst = P.entry ∧ n.2.src = .signalBox ∧
        ∃ g0 g1, n.2.body = .step g0 g1 ∧ g0.extractLsb' 0 64 = BitVec.ofNat 64 x.man.step ∧
          g0.extractLsb' 64 64 = BitVec.ofNat 64 x.man.close) ∧
    (P.credits = 0 ∨ P.frozen = true ∨ P.sendGap ≠ 0 → exec (.manifestSend p) s = .next s) ∧
    (∀ f rest n, pickRim (Flit.isCredit 15) P.rimIn = some (f, rest) → f.body = .credit 15 n →
      ∃ u, exec (.stepCredit p) s = .next u ∧ OnlyPart p.val s u ∧
        u.part p.val = { P with rimIn := rest, credits := min 2 (P.credits + n) }) ∧
    (∀ f rest x xs, pickRim (Flit.isCredit 14) P.rimIn = some (f, rest) → retireOldest P.inflight = some (x, xs) →
      ∃ u, exec (.retireCredit p) s = .next u ∧ (u.part p.val).inflight = xs ∧ (u.part p.val).rimIn = rest ∧
        (u.part p.val).stepNo = P.stepNo ∧
        (u.part p.val).streak = if P.streakStep = 0 ∨ P.streakStep = x.man.step then 0 else P.streak)

/-- A page-line acknowledgement counts for the row, the handle or the arrived page that it is of (R302); with the last line of a handle
the commands that wait for it end, with that of an arrived page it is acknowledged (R318, R326, R328). A page-full notice makes the lowest FILLING page that
closed manifests have filled FULL, gives its slot back and seals its entry (R312).
What it says of choices of the model follows the log: entries 89, 112. -/
def Obligations.PagesFillAndAcknowledge : Prop :=
  ∀ (s : State) (p : PartId), let P := s.part p.val
    (∀ who rest, P.lineAcks = who :: rest → who < 8192 →
      ∃ u, exec (.tableWriteAck p) s = .next u ∧ u = { s with parts := u.parts, rows := u.rows } ∧ OtherParts p.val s u ∧
        u.part p.val = { P with lineAcks := rest } ∧
        (u.row who).pages = { (s.row who).pages with acks := (s.row who).pages.acks - 1 } ∧
        ∀ r, u.row r = { s.row r with pages := (u.row r).pages, since := (u.row r).since, overdue := (u.row r).overdue } ∧
          (r ≠ who → (u.row r).pages = (s.row r).pages)) ∧
    (∀ who rest, P.lineAcks = who :: rest → 8192 ≤ who → who < 131072 →
      ∃ u, u = { s with parts := u.parts, handles := u.handles } ∧ OtherParts p.val s u ∧
        u.part p.val = { P with lineAcks := rest } ∧
        (∀ h, u.handle h = if h = who - 8192 then
          { s.handle h with pages := { (s.handle h).pages with acks := (s.handle h).pages.acks - 1 } } else s.handle h) ∧
        exec (.tableWriteAck p) s = .next (if (s.handle (who - 8192)).pages.acks ≤ 1 then kvWritten u (who - 8192) else u)) ∧
    (∀ who rest L, P.lineAcks = who :: rest → 131072 ≤ who → (P.landings.find? fun M => M.no == who - 131072) = some L → 2 ≤ L.left →
      ∃ u, exec (.tableWriteAck p) s = .next u ∧ u = { s with parts := u.parts, rows := u.rows } ∧ OtherParts p.val s u ∧
        u.part p.val = { P with lineAcks := rest, landings := P.landings.map fun M =>
          if M.no = who - 131072 then { M with left := M.left - 1 } else M } ∧
        ∀ r, u.row r = { s.row r with since := (u.row r).since, overdue := (u.row r).overdue, pages := { (s.row r).pages with
          acks := if L.row = some r then (s.row r).pages.acks - 1 else (s.row r).pages.acks } }) ∧
    (∀ who rest L, P.lineAcks = who :: rest → 131072 ≤ who → (P.landings.find? fun M => M.no == who - 131072) = some L → L.left ≤ 1 →
        L.acks = 1 →
      ∃ u v, exec (.tableWriteAck p) s = .next u ∧ v = { s with parts := v.parts } ∧ OtherParts p.val s v ∧
        v.part p.val = { P with lineAcks := rest, landings := P.landings.filter fun M => M.no != who - 131072 } ∧
        u = { sendMessage v p.val L.hall L.part (ShipAck.bytes L.ack) with rows := u.rows } ∧
        ∀ r, u.row r = { s.row r with since := (u.row r).since, overdue := (u.row r).overdue, pages := { (s.row r).pages with
          acks := if L.row = some r then (s.row r).pages.acks - 1 else (s.row r).pages.acks } }) ∧
    (∀ f rest r l k t i, pickRim Flit.isPageFull P.rimIn = some (f, rest) → f.body = .pageFull r l → (s.row r).part = p.val →
        noticePage s r l = some (k, t) → P.page t.page = some i →
      ∃ u, exec (.pageFullNotice p) s = .next u ∧ (u.part p.val).rimIn = rest ∧
        (u.part p.val).page t.page = some { i with st := .full, slot := none } ∧
        (u.row r).pages.later l k = some { t with sealed_ := true, resume := false, fill := 0 } ∧ OtherRows r s u)

/-! ### Token delivery -/

/-- A token whose ring has room is logged and its record written: log, GEN_LEN, LAST_SEQ, the 16 bytes at the ring's slot, PRODUCED
and RECORDS (R278, R279). A token notice below the row's next token is checked against the log: equal it is counted, different it
raises its events and is a fault of the partition, reported to the Sufin controller (R278, R283, R294); a new token of a row whose ring is
full takes the holding slot; a draft row's notice of a step closed before its last REQ is dropped (R285). Enabling a ring starts its
counts again and leaves a pending shadow pending (R490); its fields change only while it is disabled; a record that has waited holdoff µs
is told (R278, R279, R281, Table 8.13).
What it says of choices of the model follows the log: entries 85, 115. -/
def Obligations.TokensAreDelivered : Prop :=
  (∀ (s : State) (r : RowId) (n : Notice), let x := s.row r.val
    let g := s.ring x.owner x.ringNo
    let P := s.part x.part
    x.hold = some n → rowRoom s x = true → x.draft = false → x.finish = none → x.want = none → n.flags.getLsbD 0 = false →
    n.id ≠ x.stopId → x.promptLen.toNat + (x.genLen + 1) ≠ x.maxLen.toNat → P.measuring = false →
    ∃ u, exec (.streamRecordWrite r) s = .next u ∧ OtherRows r.val s u ∧
      u = { s with rows := u.rows, rings := u.rings, vifs := u.vifs, host := u.host, parts := u.parts } ∧
      u.row r.val = { x with
        log := x.log.take n.tok ++ [(n.id, BitVec.ofNat 32 s.ns)]
        genLen := x.genLen + 1, lastSeq := x.genLen + 1, hold := none, stalled := false, flag4 := false
        since := (u.row r.val).since } ∧
      u.host.posted = s.host.posted ++ [(g.base.toNat + 16 * (g.produced.toNat % 2 ^ g.size),
        recordBytes g g.produced.toNat (recordWords r.val
          ((if x.missed then 2 else 0) + (if x.flag4 then 16 else 0)) (x.genLen + 1) n.id s.ns))] ∧
      (u.ring x.owner x.ringNo).produced = g.produced + 1 ∧
      (u.vif x.owner).records = satAdd64 (s.vif x.owner).records 1 ∧ Counted x.part ctrTokens 1 s u) ∧
  (∀ (s : State) (p : PartId), let P := s.part p.val
    (∀ f rest r tok id fl, let x := s.row r
      -- the notices of the pass that are still to come
      let due := if x.entryTok ≤ tok then x.notices - 1 else x.notices
      pickRim (noticeReady s) P.rimIn = some (f, rest) → f.body = .token r tok id fl → x.part = p.val →
      (x.stale ≠ 0 → ∃ u, exec (.tokenNotice p) s = .next u ∧ u = { s with parts := u.parts, rows := u.rows } ∧ OtherParts p.val s u ∧
        OtherRows r s u ∧ u.row r = { x with stale := x.stale - 1, since := (u.row r).since } ∧ u.part p.val = { P with rimIn := rest }) ∧
      (x.stale = 0 → tok < x.promptLen.toNat + x.genLen → (x.log[tok]?).map (·.1) = some (BitVec.ofNat 32 id) →
        ∃ u, exec (.tokenNotice p) s = .next u ∧ u = { s with parts := u.parts, rows := u.rows } ∧ OtherParts p.val s u ∧
          OtherRows r s u ∧ u.row r = { x with notices := due, since := (u.row r).since } ∧
          u.part p.val = ({ P with rimIn := rest }).count ctrReplayDup 1) ∧
      (x.stale = 0 → tok < x.promptLen.toNat + x.genLen → (x.log[tok]?).map (·.1) ≠ some (BitVec.ofNat 32 id) →
        ∃ u, exec (.tokenNotice p) s = .next (noteRow (errorEvent u
            { cls := 0x22, part := some p, region := none, tile := none, detail := 0, loc := 0 }) r) ∧ OtherParts p.val s u ∧
          u = { s with parts := u.parts, rows := u.rows, headers := u.headers, host := u.host } ∧
          u.part p.val = { P with rimIn := rest } ∧ OtherRows r s u ∧ u.row r = { x with notices := due } ∧
          Events s u (evts (evt x.owner pageSig 6) (evt 0 pageSig 6))) ∧
      (x.stale = 0 → tok = x.promptLen.toNat + x.genLen → x.state = 5 → x.hold = none → x.judge = none → x.draft = false → x.specOn = false →
          x.want = none → rowRoom s x = false →
        ∃ u, exec (.tokenNotice p) s = .next u ∧ OtherParts p.val s u ∧ OtherRows r s u ∧
          u = { s with parts := u.parts, rows := u.rows } ∧ u.part p.val = { P with rimIn := rest } ∧
          u.row r = { x with
            hold := some { tok := tok, id := BitVec.ofNat 32 id, flags := fl }, notices := due, closedTo := max x.closedTo tok
            since := (u.row r).since })) ∧
    (∀ (w : WinId) (k : Fin 32) (v : Word), let g := s.ring w.val k.val
      let others := fun (u : State) => ∀ (w' : WinId) (k' : Fin 32), (w', k') ≠ (w, k) → u.ring w'.val k'.val = s.ring w'.val k'.val
      pageShown s w.val pageSig = true →
      (g.enable = false → v.getLsbD 31 = true →
        ∃ u, exec (.streamEnable w k v) s = .next u ∧ u = { s with rings := u.rings } ∧ others u ∧
          u.ring w.val k.val = { g with
            enable := true, log2size := (v.extractLsb' 26 5).toNat, vector := (v.extractLsb' 20 6).toNat
            batch := (v.extractLsb' 12 8).toNat, holdoff := (v.extractLsb' 0 12).toNat
            produced := 0, consumed := 0, quiet := 0, recs := [] }) ∧
      (g.enable = true → (v.extractLsb' 26 5).toNat ≠ g.log2size →
        ∃ u, exec (.streamEnable w k v) s = .next u ∧ others u ∧ u = { s with rings := u.rings, headers := u.headers, host := u.host } ∧
          u.ring w.val k.val = { g with enable := v.getLsbD 31 } ∧ (u.header w.val pageSig).cfgReject = true) ∧
      (g.quiet ≠ 0 → g.batch ≠ 0 → g.holdoff ≠ 0 → g.quietAt + 1000 * g.holdoff ≤ s.ns →
        ∃ u, exec (.streamHoldoffExpire w k) s = .next u ∧ u = { s with rings := u.rings, host := s.host.msi w.val g.vector } ∧
          others u ∧ u.ring w.val k.val = { g with quiet := 0 })))

/-! ### Prefix handles and ship messages -/

/-- The KVP commands (R317, R318, R328–R330): while one runs another is ignored with KV_BUSY; a CREATE with room makes a live handle
of the row's first Lp tokens; RETIRE frees the handle's index, and a command that still runs on it ends with status 2; PARK and RECALL
move a handle's pages between this module's partitions, PARK to another module by page messages; after a RECALL the handle holds its
places in the cache partition still, until it is retired. In recovery the page is not shown and a command has no effect (R481). CREATE, PARK and RECALL run until every
line of the handle is written and then end with their status, CREATE with the handle's value; each ends with CMD_DONE or CMD_FAIL, and
no row changes.
What it says of choices of the model follows the log: entries 24, 25, 89, 112. -/
def Obligations.HandleCommands : Prop :=
  ∀ (s : State) (w : WinId), let K := s.kv w.val
    let ended := fun (u : State) (st : Byte) => u = { s with
        tiles := u.tiles, parts := u.parts, handles := u.handles, kvp := u.kvp, headers := u.headers, host := u.host } ∧
      Events s u (evt w.val pageKvp (if st = 0 then 0 else 1)) ∧ (∀ v, v ≠ w.val → u.kv v = s.kv v) ∧
      u.kv w.val = { K with busy := false, run := none, status := st, result := (u.kv w.val).result }
    -- the command goes on exactly while the handle awaits lines
    let runsOn := fun (u : State) (i : Nat) => (∀ v, v ≠ w.val → u.kv v = s.kv v) ∧
      (u.kv w.val).busy = decide ((u.handle i).pages.acks ≠ 0) ∧
      ((u.kv w.val).busy = true → u = { s with parts := u.parts, handles := u.handles, kvp := u.kvp })
    (s.recovery = true → ∀ c ∈ [Instr.create w, .retire w, .park w, .kvRecall w], exec c s = .next s) ∧
    (s.recovery = false → K.busy = true → ∀ c ∈ [.create w, .retire w, .park w, .kvRecall w],
      ∃ u, exec c s = .next u ∧ u = { s with headers := u.headers, host := u.host } ∧ Events s u (evt w.val pageKvp 2)) ∧
    (∀ R, K.run = some R → R.away = false → let H := s.handle R.handle
      let u := kvFinish s w.val
      (H.pages.acks ≠ 0 → u = s) ∧
      (H.pages.acks = 0 → ended u 0 ∧ (∀ j, j ≠ R.handle → u.handle j = s.handle j) ∧
        (R.op = 1 → u.handles = s.handles ∧ u.parts = s.parts ∧ (u.kv w.val).result = handleValue R.handle H.gen) ∧
        (R.op = 3 → (u.kv w.val).result = K.result ∧ u.handle R.handle = { H with
          part := R.part, pages := R.pages, parked := some (s.hall.addr, R.part) }) ∧
        (R.op ≠ 1 → R.op ≠ 3 → (u.kv w.val).result = K.result ∧ u.parts = s.parts ∧ u.handle R.handle = { H with
          part := R.part, pages := R.pages, parked := none, kept := H.kept ++ [(H.part, H.pages)] }))) ∧
    (s.recovery = false → K.busy = false → ∀ i base s1 ps, let r := (K.row.extractLsb' 0 13).toNat
      let x := s.row r
      let lp := K.len.toNat
      let n := (lp + 63) / 64
      0 < lp → lp ≤ 262143 → x.owner = w.val → x.state = 7 ∨ x.state = 8 → x.part = (K.part.extractLsb' 0 4).toNat →
      lp ≤ x.closedTo → lostBelow s r lp = false → ((List.range 4096).find? fun i => i != 0 && !(s.handle i).live) = some i →
      tableRun s x.part (cdiv (n + 1) 128) = some base →
      (s.part x.part).feet.foldl (fun acc f => createLayer r i lp acc f.layer)
        (some (s, { base := base, lines := cdiv (n + 1) 128, acks := (s.handle i).pages.acks })) = some (s1, ps) →
      ∃ u, exec (.create w) s = .next u ∧ runsOn u i ∧
        ((u.kv w.val).busy = false → ended u 0 ∧ (u.kv w.val).result = handleValue i (s.handle i).gen) ∧
        ((u.kv w.val).busy = true → u.kv w.val = { K with busy := true, run := some { op := 1, handle := i, part := x.part, hall := 0 } }) ∧
        (∀ j, j ≠ i → u.handle j = s.handle j) ∧ (u.handle i).live = true ∧ (u.handle i).gen = (s.handle i).gen ∧
        (u.handle i).owner = w.val ∧ (u.handle i).len = lp ∧ (u.handle i).tokens = (x.log.take lp).map (·.1) ∧
        (u.handle i).weightGen = x.weightGen ∧ (u.handle i).part = x.part ∧ (u.handle i).origin = x.part ∧
        (u.handle i).seed = x.reqSeed) ∧
    (s.recovery = false → K.busy = false → ∀ i H, handleOf s K.handle = some (i, H) → w.val = 0 ∨ H.owner = w.val →
      (∃ u, exec (.retire w) s = .next u ∧ u.tiles = s.tiles ∧ u.rows = s.rows ∧ u.kv w.val = { K with
          busy := false, run := none, status := 0, result := (u.kv w.val).result } ∧
        (∀ v, v ≠ w.val → v ∉ kvOn s i → u.kv v = s.kv v) ∧
        (∀ v, v ≠ w.val → v ∈ kvOn s i → (u.kv v).busy = false ∧ (u.kv v).run = none ∧ (u.kv v).status = 2) ∧
        (kvOn s i = [] → ended u 0 ∧ ∀ q, q ≠ H.part → (∀ k ∈ H.kept, k.1 ≠ q) → u.part q = s.part q) ∧
        ∀ j, u.handle j = if j = i then { gen := H.gen + 1, part := H.part, pages := { acks := H.pages.acks } } else s.handle j) ∧
      (kvOn s i ≠ [] → (∃ u, exec (.park w) s = .next u ∧ ended u 8 ∧ u.handles = s.handles ∧ u.parts = s.parts) ∧
        ∃ u, exec (.kvRecall w) s = .next u ∧ ended u 8 ∧ u.handles = s.handles ∧ u.parts = s.parts) ∧
      (H.parked.isSome = true → ∃ u, exec (.park w) s = .next u ∧ ended u 8 ∧ u.handles = s.handles ∧ u.parts = s.parts ∧
        u.tiles = s.tiles) ∧
      (H.parked = none → kvOn s i = [] → K.dest.getLsbD 0 = true → (∃ kv ∈ H.pages.tables, kv.2 ≠ []) →
        ∃ u R, exec (.park w) s = .next u ∧ u = { s with shipped := u.shipped, ports := u.ports, kvp := u.kvp } ∧
          (∀ v, v ≠ w.val → u.kv v = s.kv v) ∧ u.kv w.val = { K with busy := true, run := some R } ∧ R.op = 3 ∧ R.handle = i ∧
          R.away = true ∧ R.part = (K.dest.extractLsb' 32 4).toNat ∧ R.hall = K.dest.extractLsb' 48 16 ∧
          (∀ l k, (l, k) ∈ R.left ↔ ∃ kv ∈ H.pages.tables, kv.1 = l ∧ k < kv.2.length)) ∧
      (H.parked = none → kvOn s i = [] → K.dest.getLsbD 0 = false → ∀ q s1 ts, q = (K.dest.extractLsb' 32 4).toNat → (s.part q).loaded = true →
        (s.part q).role = 2 →
        moveAll s H.part q i H (fun _ => (s.part q).storeTiles) (fun l k => i + k + l) = some (s1, ts) →
        ∃ u, exec (.park w) s = .next u ∧ runsOn u i ∧ (∀ j, j ≠ i → u.handle j = s.handle j) ∧
          ((u.kv w.val).busy = false → ended u 0 ∧
            u.handle i = { H with parked := some (s.hall.addr, q), part := q, pages := { tables := ts } }) ∧
          ((u.kv w.val).busy = true → u.handle i = { H with pages := { H.pages with acks := (u.handle i).pages.acks } } ∧
            u.kv w.val = { K with
              busy := true, run := some { op := 3, handle := i, part := q, hall := s.hall.addr, pages := { tables := ts } } })) ∧
      (H.parked = none → ∃ u, exec (.kvRecall w) s = .next u ∧ ended u 8 ∧ u.handles = s.handles ∧ u.parts = s.parts ∧
        u.tiles = s.tiles) ∧
      (∀ pl q n base s1 ts, H.parked = some (s.hall.addr, pl) → kvOn s i = [] → (s.part H.part).role = 2 → q = (K.part.extractLsb' 0 4).toNat →
        (s.part q).loaded = true → (s.part q).role ≠ 2 → n = (H.pages.tables.map fun kv => kv.2.length).foldl max 0 →
        tableRun s q (cdiv (n + 1) 128) = some base →
        moveAll s H.part q i H (fun l => (s.part q).plat l) (fun _ k => i + k) = some (s1, ts) →
        ∃ u, exec (.kvRecall w) s = .next u ∧ runsOn u i ∧ (∀ j, j ≠ i → u.handle j = s.handle j) ∧
          ((u.kv w.val).busy = false → ended u 0 ∧ u.handle i = { H with
            parked := none, part := q, kept := H.kept ++ [(H.part, H.pages)]
            pages := { (u.handle i).pages with base := base, tables := ts } }) ∧
          ((u.kv w.val).busy = true → u.handle i = { H with pages := { H.pages with acks := (u.handle i).pages.acks } } ∧
            ∃ R, u.kv w.val = { K with busy := true, run := some R } ∧ R.op = 4 ∧ R.handle = i ∧ R.part = q ∧ R.away = false ∧
              R.pages.tables = ts ∧ R.pages.base = base)))

/-- Ship messages: an accepted page of an import row is placed in its frame and table and counted, and acknowledged when its lines are
written; one that came before is acknowledged again, with its lines if they are not written yet; one that is refused is counted and
raises its events, drains the import row that it was for, and leaves every other row. An acknowledgement ends its message and counts for the export; a message unacknowledged for 1 ms is sent again and counted (R277, R325–R327).
What it says of choices of the model follows the log: entries 22, 23, 112. -/
def Obligations.ShipMessages : Prop :=
  ∀ (s : State) (p : PartId), let P := s.part p.val
    (∀ m : ShipMsg, let x := s.row m.destRow
      P.role ≠ 2 →
      let same := fun (L : Landing) => L.hall == m.srcHall && L.ack == ackOf m 0
      (shipTwice s p.val m = true → P.landings.any same = false →
        exec (.shipMessageRx p m) s = .next (ackTo s p.val m m.destRow 0)) ∧
      (shipTwice s p.val m = true → P.landings.any same = true →
        ∃ u, exec (.shipMessageRx p m) s = .next u ∧ OnlyPart p.val s u ∧
          u.part p.val = { P with landings := P.landings.map fun L => if same L then { L with acks := L.acks + 1 } else L }) ∧
      (∀ home unit, shipStatus s p.val m = 0 → shipTwice s p.val m = false → shipPlace s p.val m = some (home, unit) →
        ∃ u, exec (.shipMessageRx p m) s = .next u ∧ OtherRows m.destRow s u ∧ OtherParts p.val s u ∧
          u = { s with parts := u.parts, rows := u.rows, ports := u.ports } ∧
          (∃ i, (u.part p.val).page (pageId home unit) = some i ∧ i.layer = m.layer ∧ i.refs = 1 ∧ i.k8 = (m.fmt != 0) ∧
            i.st = if m.fill < 64 then .filling else .full) ∧
          (∃ t, (u.row m.destRow).pages.entry m.layer m.k = some t ∧ t.page = pageId home unit ∧
            t.sealed_ = decide (64 ≤ m.fill) ∧ t.resume = decide (m.fill < 64)) ∧
          (m.lines ≠ [] → u.ports = s.ports ∧ ∃ L, (u.part p.val).landings = P.landings ++ [L] ∧ L.row = some m.destRow ∧
            m.lines.length ≤ L.left ∧ L.hall = m.srcHall ∧ L.part = m.destPart ∧ L.ack = ackOf m 0) ∧
          (u.row m.destRow).runs = x.runs.filter (fun v => !(v.layer == m.layer && v.k == m.k)) ∧
          (u.part p.val).counter ctrShipIn = (P.count ctrShipIn 1).counter ctrShipIn) ∧
      (shipTwice s p.val m = false → shipStatus s p.val m ≠ 0 → x.state = 9 → x.part = p.val →
        ∃ u, exec (.shipMessageRx p m) s = .next u ∧ OtherRows m.destRow s u ∧ Counted p.val ctrShipRefused 1 s u ∧
          (u.row m.destRow).shipRefused = shipStatus s p.val m ∧ (u.row m.destRow).cancelAt = x.lastSeq ∧
          ((u.row m.destRow).state = 6 ∧ (u.row m.destRow).finish = some 3 ∨
            (u.row m.destRow).state = 7 ∧ (u.row m.destRow).doneCode = 3)) ∧
      (shipTwice s p.val m = false → shipStatus s p.val m ≠ 0 → ¬ (x.state = 9 ∧ x.part = p.val) →
        ∃ u, exec (.shipMessageRx p m) s = .next u ∧ u.rows = s.rows ∧ Counted p.val ctrShipRefused 1 s u ∧
          u = { s with parts := u.parts, headers := u.headers, host := u.host, ports := u.ports } ∧
          Events s u (evts (evt (if x.state ≠ 0 ∧ x.part = p.val then x.owner else 0) pageKvp 3) (evt 0 pageKvp 3)))) ∧
    (∀ (a : ShipAck) (y : Shipped), let x := s.row y.msg.srcRow
      (s.shipped.find? fun z => z.part == p.val && z.msg.destRow == a.row && z.msg.k == a.k && z.msg.layer == a.layer) = some y → y.window = none →
      x.part = p.val → a.status = 0 → 2 ≤ x.exportsLeft →
      ∃ u, exec (.shipAckRx p a) s = .next u ∧ u = { s with shipped := s.shipped.erase y, parts := u.parts, rows := u.rows } ∧
        Counted p.val ctrShipOut 1 s u ∧ OtherRows y.msg.srcRow s u ∧
        u.row y.msg.srcRow = { x with exportsLeft := x.exportsLeft - 1 }) ∧
    (∀ i y, s.shipped[i]? = some y → y.part = p.val → y.window = none ∨ y.tries < 64 → y.at_ + 1000000 ≤ s.ns →
      ∃ u, exec (.shipRetry p i) s = .next u ∧ u = { s with shipped := u.shipped, parts := u.parts, ports := u.ports } ∧
        u.shipped = s.shipped.set i { y with at_ := s.ns, tries := y.tries + 1 } ∧ Counted p.val ctrShipRetry 1 s u) ∧
    (∀ i y, s.shipped[i]? = some y → s.ns < y.at_ + 1000000 ∨ y.part ≠ p.val → exec (.shipRetry p i) s = .next s)

/-! ### Loads and quarantine -/

/-- LOAD_IMAGE starts its checks; a failed check refuses the image and leaves the partition as it was but for BUILD_STAT; a passed
one, with no row in the way, begins the quarantine: hold, no generation, no step (R250, R351, R461, R470). The end of a quarantine
that no image waits for leaves every tile of the rectangle zero but for its place in service, its declared refresh time and its
column's bursts, and the partition without an image; a lost region's tiles were zero already and only leave it (R470, R472). A Roundhouse reset ends
every running command that is not writing an accepted image (R422). In recovery the page is not shown and the commands have no effect
(R481).
What it says of choices of the model follows the log: entries 4, 55, 108. -/
def Obligations.ImagesAndQuarantine : Prop :=
  ∀ (s : State) (w : WinId), let R := s.rn w.val
    (s.recovery = true → ∀ f, exec (.loadImage w f) s = .next s) ∧
    (∀ f, s.recovery = false → R.busy = false → w.val = 0 → s.bru.done = true → let p := (R.part.extractLsb' 0 4).toNat
      ∃ u, exec (.loadImage w f) s = .next u ∧ u = { s with rnd := u.rnd, parts := u.parts } ∧ OtherParts p s u ∧
        u.part p = { s.part p with bstate := 1 } ∧ (∀ v, v ≠ w.val → u.rn v = s.rn v) ∧
        u.rn w.val = { R with busy := true, image := some { part := p, img := imageOf f R.len.toNat } }) ∧
    (∀ f, s.recovery = false → R.busy = false → w.val ≠ 0 ∨ s.bru.done = false →
      ∃ u, exec (.loadImage w f) s = .next u ∧ u = { s with rnd := u.rnd, headers := u.headers, host := u.host } ∧
        u.rn w.val = { R with status := 8, load := none, image := none } ∧ Events s u (evt w.val pageRnd 1)) ∧
    (∀ I, R.image = some I → I.quarantined = false → (imageCheck s I.part R.len.toNat I.img).1 ≠ 0 →
      ∃ u, exec (.loadChecksDone w) s = .next u ∧ u = { s with parts := u.parts, rnd := u.rnd, headers := u.headers, host := u.host } ∧
        OtherParts I.part s u ∧ u.part I.part = { s.part I.part with
          bstate := 3, refusal := (imageCheck s I.part R.len.toNat I.img).1, section_ := (imageCheck s I.part R.len.toNat I.img).2 } ∧
        (u.rn w.val).status = 0xB ∧ (u.rn w.val).busy = false) ∧
    (∀ I, R.image = some I → R.load = none → I.quarantined = false → (imageCheck s I.part R.len.toNat I.img).1 = 0 →
        partActive s I.part = 0 ∨ R.flags.getLsbD 1 = true →
      ∃ u, exec (.loadChecksDone w) s = .next u ∧ (u.part I.part).quarantine = true ∧ (u.part I.part).frozen = true ∧
        (u.part I.part).copy0 = none ∧ (u.part I.part).copy1 = none ∧ (u.part I.part).slots = [] ∧ (u.part I.part).inflight = [] ∧
        u.rn w.val = { R with image := some { I with quarantined := true } }) ∧
    (∀ p : PartId, let P := s.part p.val
      P.quarantine = true → s.bru.warmWaits = false → (∀ kv ∈ s.rnd, kv.2.image = none) →
      ∃ u, exec (.quarantineEnd p []) s = .next u ∧ (u.part p.val).quarantine = false ∧ (u.part p.val).image = none ∧
        (u.part p.val).frozen = false ∧
        (∀ t, tileKey t ∈ rectTiles P.gx0 P.gy0 P.width P.height P.lost →
          u.tile t = { Tile.reset with
            inService := (s.tile t).inService, deferMax := (s.tile t).deferMax, reads := (s.tile t).reads
            refreshing := (s.tile t).refreshing, owed := (s.tile t).owed, burstDue := (s.tile t).burstDue }) ∧
        (∀ t, tileKey t ∉ rectTiles P.gx0 P.gy0 P.width P.height P.lost →
          u.tile t = if tileKey t ∈ rectTiles P.gx0 P.gy0 P.width P.height none then { s.tile t with part := none } else s.tile t)) ∧
    (∃ u, exec .roundhouseReset s = .next u ∧
      (∀ v, v < 128 → (s.rn v).busy = false → u.rn v = s.rn v) ∧
      ∀ v, v < 128 → (s.rn v).busy = true → (∀ I, (s.rn v).image = some I → (s.rn v).load = none → I.quarantined = false) →
        (u.rn v).busy = false ∧ (u.rn v).status = 0xA ∧ (u.rn v).load = none ∧ (u.rn v).image = none)

/-- LOAD_GEN and LOAD_ADAPTER that pass every check start a load into the copy that no current generation holds, under the next
number, and shards whose source is another module are asked for on a link; RETIRE_ADAPTER marks the slot, and a generation that has not
switched never does; ABORT discards the generation a load was making: its lines that wait in the rim go no further, and the copy is free
when those under way are written (R337, R344–R346, R354, R356–R360). In recovery the page is not shown and the commands have no effect
(R481).
What it says of choices of the model follows the log: entries 4, 26, 110, 117, 123. -/
def Obligations.LoadsStart : Prop :=
  ∀ (s : State) (w : WinId) (f : ManifestFile), let R := s.rn w.val
    let m := manifestOf f R.len.toNat
    let started := fun (u : State) (p : Nat) (slot : Option Nat) (copy : Bool) =>
      u = { s with parts := u.parts, rnd := u.rnd, house := u.house, ports := u.ports } ∧
      (∀ n, u.port n = { s.port n with mgmtQ := (u.port n).mgmtQ }) ∧
      ((∀ e ∈ m.shards, ∀ src ∈ e.sources, src.kind ≠ 2) → u.ports = s.ports) ∧ u.house = { s.house with
        engines := u.house.engines, scrubs := s.house.scrubs.filter fun q => !(q.1 == p && q.2.1 == slot && q.2.2.1 == copy) }
    let p := (R.part.extractLsb' 0 4).toNat
    let j := (R.part.extractLsb' 16 10).toNat
    let P := s.part p
    (s.recovery = true → ∀ c ∈ [Instr.loadGen w f, .loadAdapter w f, .retireAdapter w, .abort w], exec c s = .next s) ∧
    (∀ img copy, s.recovery = false → R.busy = false → w.val = 0 → P.image = some img → P.loaded = true → P.role ≠ 2 → manifestStatus s m 0 = none →
        m.digest = img.header.manifestDigest →
        recordsFit m (img.weights.lines.map fun x => (x.shard, x.offset, x.packing, x.count)) = true →
        copy = (match P.currentGen with
          | some (c, _) => !c
          | none => false) →
        P.gen copy = none → P.namesCopy copy = false → stillWritten s p none copy = false → mastersFit s m = true →
      ∃ u, exec (.loadGen w f) s = .next u ∧ started u p none copy ∧ OtherParts p s u ∧
        u.part p = P.setGen copy (some { no := P.genCount + 1, man := m, window := w.val, policy := R.flags.getLsbD 0,
                                         switchAt := R.switchAt.toNat }) ∧
        (∀ v, v ≠ w.val → u.rn v = s.rn v) ∧
        u.rn w.val = { R with
          busy := true, total := BitVec.ofNat 32 m.shards.length, done := 0, result := BitVec.ofNat 32 (P.genCount + 1)
          made := some (p, none, copy, P.genCount + 1)
          load := some { part := p, slot := none, copy := copy, man := m, shards := m.shards.map (shardStart s) } }) ∧
    (∀ img lay copy, let x := P.slot j
      s.recovery = false → R.busy = false → w.val = 0 ∨ ((s.vif w.val).partMask.getLsbD p = true ∧ (x.owner = none ∨ x.owner = some w.val)) →
      P.image = some img → P.loaded = true → P.role ≠ 2 → manifestStatus s m 1 = none → img.weights.layout = some lay →
      m.vocab ≤ 64 → (∀ i, i < m.shards.length → ∃ a ∈ img.weights.adapters, a.shard = i ∧ a.group = j % lay.groups) →
      recordsFit m ((img.weights.adapters.filter fun a => a.group == j % lay.groups).map
        fun a => (a.shard, a.offset, lay.packing, a.count)) = true →
      copy = (match x.current with
        | some (c, _) => !c
        | none => x.copy0.isSome) →
      x.gen copy = none → P.namesSlot j copy = false → stillWritten s p (some j) copy = false → mastersFit s m = true →
      ∃ u, exec (.loadAdapter w f) s = .next u ∧ started u p (some j) copy ∧ OtherParts p s u ∧
        u.part p = P.setSlot j { x.setGen copy (some { no := nextSlotGen x.count, man := m, window := w.val }) with
          owner := some (x.owner.getD w.val), retired := false } ∧
        u.rn w.val = { R with
          busy := true, total := BitVec.ofNat 32 m.shards.length, done := 0, result := BitVec.ofNat 32 (nextSlotGen x.count)
          made := some (p, some j, copy, nextSlotGen x.count)
          load := some { part := p, slot := some j, copy := copy, man := m, shards := m.shards.map (shardStart s) } }) ∧
    (s.recovery = false → R.busy = false → w.val = 0 ∨ ((s.vif w.val).partMask.getLsbD p = true ∧ (P.slot j).owner = some w.val) →
      let ended := fun (g : SlotGen) => { g with dead := !g.switched }
      ∃ u, exec (.retireAdapter w) s = .next u ∧ u = { s with parts := u.parts, rnd := u.rnd, headers := u.headers, host := u.host } ∧
        OtherParts p s u ∧ u.part p = P.setSlot j { P.slot j with
          retiring := true, copy0 := (P.slot j).copy0.map ended, copy1 := (P.slot j).copy1.map ended } ∧
        u.rn w.val = { R with status := 0, load := none, image := none } ∧ Events s u (evt w.val pageRnd 0)) ∧
    (∀ L : Load, s.recovery = false → R.load = some L → let n := stopMark L.part L.slot L.copy
      ∃ u Q, exec (.abort w) s = .next u ∧
        (∀ t, u.tile t = { s.tile t with
          fifo := (u.tile t).fifo, skid := (u.tile t).skid, low := (s.tile t).low.map (LowAccess.remark (16384 + w.val) n) }) ∧
        u = { s with tiles := u.tiles, parts := u.parts, rnd := u.rnd, headers := u.headers, host := u.host
                     house := { s.house with engines := u.house.engines } } ∧ OtherParts L.part s u ∧
        Q = { s.part L.part with
          weightOut := (s.part L.part).weightOut.filter fun y => !y.marked (16384 + w.val)
          lineSent := (s.part L.part).lineSent.map (Flit.remark (16384 + w.val) n) } ∧
        (L.slot = none → u.part L.part = Q.setGen L.copy none) ∧
        (∀ k, L.slot = some k → u.part L.part = Q.setSlot k ((Q.slot k).setGen L.copy none)) ∧
        u.rn w.val = { R with busy := false, status := 0xA, load := none, image := none } ∧ Events s u (evt w.val pageRnd 1)) ∧
    (s.recovery = false → R.load = none → R.busy = false → unswitched s w.val = none →
      ∃ u, exec (.abort w) s = .next u ∧ u = { s with rnd := u.rnd, headers := u.headers, host := u.host } ∧
        u.rn w.val = { R with status := 1, image := none } ∧ Events s u (evt w.val pageRnd 1)) ∧
    (s.recovery = false → R.busy = true → ∀ c ∈ [.loadGen w f, .loadAdapter w f, .retireAdapter w],
      ∃ u, exec c s = .next u ∧ u = { s with headers := u.headers, host := u.host } ∧ Events s u (evt w.val pageRnd 2))

/-- Shards: one of the right length takes the first free hashing engine, is held and distributed while it is hashed; a wrong length, a
stall and a read error fail it, counted, and it starts again from the next source; the digest of the very bytes fetched is what counts: a
match makes them the verified master, a mismatch discards what was held (R340–R343). When its turn has come the badger reads a resident shard's lines
and hashes them and its master: it notes a good visit and opens a repair for a bad one; a repair sends the lines through the rim gate at P3
once no step names the copy and its master is verified, and reports the rows of every step that named it; the scrub log takes the entries of a report as it has room (R352–R355).
What it says of choices of the model follows the log: entries 4, 27. -/
def Obligations.ShardsAndScrubs : Prop :=
  ∀ (s : State) (w : WinId) (i : Nat), let R := s.rn w.val
    let failed := fun (L : Load) (x : ShardRun) (e : ShardEntry) (u : State) =>
      u = { s with parts := u.parts, rnd := u.rnd, headers := u.headers, host := u.host, house := u.house, ports := u.ports } ∧
      u.house = { s.house with engines := u.house.engines, masters := u.house.masters } ∧ Counted L.part ctrShardRetry 1 s u ∧
      Events s u (if w.val = 0 then evt 0 pageRnd 3 else evts (evt w.val pageRnd 3) (evt 0 pageRnd 3)) ∧
      (∀ v, v ≠ w.val → u.rn v = s.rn v) ∧
      u.rn w.val = { R with load := some (L.setShard i
        { st := .fetching, attempts := x.attempts + 1, source := nextSource e (x.source + 1) }) }
    (∀ L x e, R.load = some L → L.shards[i]? = some x → L.man.shards[i]? = some e → x.st = .fetching → loadPaused s L = false →
      (∀ bytes, bytes.length = e.length → (takeEngine s w.val i).isSome = true → s.goodMaster e.digest = false →
        ∃ u, exec (.shardReceived w i bytes) s = .next u ∧
        u = { s with parts := u.parts, rnd := u.rnd, house := { s.house with masters := u.house.masters, engines := u.house.engines } } ∧
        (∃ k, k < 64 ∧ FMap.get none u.house.engines k = some (w.val, i) ∨ (w.val, i) ∈ s.house.engines.filterMap (·.2)) ∧
        (∃ h, u.master e.digest = some ⟨e.digest, bytes, false, h⟩) ∧ (∀ d, d ≠ e.digest → u.master d = s.master d) ∧
        ∃ n, u.rn w.val = { R with load := some { L.setShard i { x with st := .hashing, bytes := bytes } with lines := n } }) ∧
      (x.attempts < 5 → (∀ bytes, bytes.length ≠ e.length → ∃ u, exec (.shardReceived w i bytes) s = .next u ∧ failed L x e u) ∧
        (∃ u, exec (.shardStall w i) s = .next u ∧ failed L x e u) ∧
        (∃ u, exec (.shardReadError w i) s = .next u ∧ failed L x e u)) ∧
      (∀ bytes, bytes.length = e.length → takeEngine s w.val i = none → exec (.shardReceived w i bytes) s = .next s) ∧
      (5 ≤ x.attempts → ∃ u, exec (.shardStall w i) s = .next u ∧ (u.rn w.val).status = 5 ∧ (u.rn w.val).busy = false)) ∧
    (∀ L x e (k : Fin 64), R.load = some L → L.shards[i]? = some x → L.man.shards[i]? = some e → x.st = .hashing →
        loadPaused s L = false → FMap.get none s.house.engines k.val = some (w.val, i) →
      (Config.sha384 x.bytes ≠ e.digest → x.attempts < 5 →
        ∃ u, exec (.shardHashed w i k) s = .next u ∧ failed L x e u ∧ (s.goodMaster e.digest = false → u.master e.digest = none)) ∧
      (Config.sha384 x.bytes = e.digest → L.lines ≠ 0 →
        ∃ u, exec (.shardHashed w i k) s = .next u ∧ u = { s with rnd := u.rnd, house := u.house } ∧ u.goodMaster e.digest = true ∧
          u.rn w.val = { R with done := R.done + 1, load := some (L.setShard i { x with st := .good, bytes := [] }) }) ∧
      (Config.sha384 x.bytes = e.digest → L.lines = 0 → (∀ y ∈ L.shards.set i { x with st := .good, bytes := [] }, y.st = .good) →
        ∃ u, exec (.shardHashed w i k) s = .next u ∧ (u.rn w.val).busy = false ∧ (u.rn w.val).status = 0 ∧
          (u.rn w.val).done = R.done + 1 ∧ Events s u (evt w.val pageRnd 0) ∧
          (L.slot = none → ∀ g, (s.part L.part).gen L.copy = some g →
            ∃ g', (u.part L.part).gen L.copy = some g' ∧ g'.ready = true ∧ g'.no = g.no ∧ g'.man = g.man ∧
              (u.part L.part).genCount = g.no))) ∧
    (∀ (p : PartId) (slot : Option (Fin 1024)) (copy : Bool) (k m : Fin 64) (e : ShardEntry), let j := slot.map (·.val)
      let due := visitDue (badgerRound s) (p.val, j, copy, i)
      let lines := Config.sha384 (waferShard s p.val j copy i e)
      let held := s.masterHolds e.digest
      ((residentManifest (s.part p.val) j copy).bind fun m => m.shards[i]?) = some e →
      FMap.get none s.house.engines k.val = none → FMap.get none s.house.engines m.val = none →
      (due = false → exec (.badgerVisit p slot copy i k m) s = .next (badgerRound s)) ∧
      (due = true → lines = e.digest → held = true →
        ∃ u, exec (.badgerVisit p slot copy i k m) s = .next u ∧ u = { s with house := u.house } ∧
        u.house = { s.house with scrubs := u.house.scrubs, visited := u.house.visited, roundAt := u.house.roundAt } ∧
        (p.val, j, copy, i) ∈ u.house.visited ∧ lastScrub u p.val j copy i = s.ns) ∧
      (due = true → lines ≠ e.digest ∨ held = false → (∀ r ∈ s.house.repairs, r.shard ≠ i) →
        ∃ u r, exec (.badgerVisit p slot copy i k m) s = .next u ∧ u = { s with house := u.house, ports := u.ports } ∧
          u.house.repairs = s.house.repairs ++ [r] ∧ u.house.scrubs = s.house.scrubs ∧
          r.part = p.val ∧ r.slot = j ∧ r.copy = copy ∧ r.shard = i ∧ (r.lines = true ↔ lines ≠ e.digest) ∧
          (r.refetch = true ↔ held = false) ∧ (r.refetch = true → u.master e.digest = none) ∧ r.digest = e.digest ∧
          r.start = lastScrub s p.val j copy i ∧ r.stop = s.ns)) ∧
    (∀ (p : PartId) (r : Repair) (e : ShardEntry), let P := s.part p.val
      let ls := shardLines s p.val none r.copy r.shard
      let atP3 : Nat → Line → LowAccess := fun l d => { level := 3, line := l, data := d, ack := some (repairMark p.val) }
      let sent : List Flit := ls.map fun l => { src := .roundhouse, dst := l.1, body := .line (atP3 l.2.1 ⟨l.2.2.1, l.2.2.2⟩) }
      s.house.repairs.find? (fun r => r.part == p.val && r.lines && !r.refetch) = some r → r.slot = none →
      P.namesCopy r.copy = false → P.rstate = 0 → (∀ q ∈ s.house.repairs, q.part = p.val → q.left = none) →
      ((residentManifest P none r.copy).bind fun m => m.shards[r.shard]?) = some e → s.goodMaster e.digest = true →
      s.house.reports.length < 16 →
      ∃ u R, exec (.scrubRepair p) s = .next u ∧
        u = { s with parts := u.parts, house := u.house, headers := u.headers, host := u.host } ∧ OtherParts p.val s u ∧
        u.part p.val = { P.count ctrScrub 1 with weightOut := P.weightOut ++ sent } ∧
        Events s u (evt 0 pageRnd 4) ∧
        u.house.repairs = (if ls = [] then s.house.repairs.erase r
          else s.house.repairs.map fun q => if q = r then { r with left := some ls.length } else q) ∧
        u.house.reports = s.house.reports ++ [R] ∧ R.part = p.val ∧ R.shard = r.shard ∧ R.start = r.start ∧ R.stop = r.stop ∧
        R.no = s.house.reportNo ∧
        let in_ := fun (c : Carried) => c ∈ s.house.carried ∧ c.part = p.val ∧ r.start ≤ c.close ∧ c.close ≤ r.stop
        ∀ n, n ∈ R.rows ↔ ∃ c d, in_ c ∧ in_ d ∧ c.row = n ∧ d.step = c.step ∧ d.copy = r.copy) ∧
    (∀ Q rest, let g := s.house.log
      let all := (rowGroups (Q.rows.length + 1) Q.rows).length
      let n := min (all - Q.written) (2 ^ logSize g - (g.produced - g.consumed).toNat)
      s.house.reports = Q :: rest → g.enable = true → n ≠ 0 → hostReady s 0 = true →
      ∃ u, exec .scrubLogWrite s = .next u ∧ u = { s with house := u.house, host := u.host } ∧
        u.house = { s.house with
          reports := if Q.written + n = all then rest else { Q with written := Q.written + n } :: rest
          log := { g with produced := g.produced + BitVec.ofNat 32 n } } ∧
        u.host.posted.length = s.host.posted.length + n)

/-! ### Links -/

/-- Port states (R364, R388, Table 11.6): trained lanes take a port from TRAINING to UP; a lost lane takes it to FAILED, and one
that was UP counts LINK_DOWN and reports it with class 0x50, which enters the history at once; a lost signal empties its queues, counted in
TX_DROP, and a FAILED port stays FAILED; a retrain takes an enabled port to TRAINING, but not in recovery, where the page is not shown
(R481); at SWAP_FRAME the slot tables change roles.
What it says of choices of the model follows the log: entries 104, 120. -/
def Obligations.PortsTrainAndFall : Prop :=
  ∀ (s : State) (n : PortId), let L := s.port n.val
    (∀ h q, L.state = 2 →
      ∃ u, exec (.linkTrained n h q) s = .next u ∧ OtherPorts n.val s u ∧
        u = { s with ports := u.ports, headers := u.headers, host := u.host, hall := u.hall } ∧
        (u.port n.val) = { L with state := 3, lanes := 0xFF, peer := BitVec.ofNat 32 (h.toNat + 65536 * q.val)
                                  taps := (u.port n.val).taps, spoiled := [], waiting := [], sent := [], lastSlots := [], heard := none
                                  markers := [] } ∧
        (s.hall.state ≠ 2 → Events s u (evtAll s (pageLnk + n.val) 1))) ∧
    (∀ l : Fin 8, L.state = 2 → ∃ u, exec (.linkLockLost n l) s = .next u ∧ OnlyPort n.val s u ∧
      u.port n.val = { L with state := 4, lanes := L.lanes &&& ~~~(BitVec.ofNat 8 (2 ^ l.val)), peer := 0, peerDepth := 255 }) ∧
    (∀ l : Fin 8, L.state = 3 → ∃ u, exec (.linkLockLost n l) s = .next u ∧ OtherPorts n.val s u ∧
      u.port n.val = ({ L with
        state := 4, lanes := L.lanes &&& ~~~(BitVec.ofNat 8 (2 ^ l.val)), peer := 0, peerDepth := 255 }).count ctrDown 1 ∧
      u = { s with ports := u.ports, headers := u.headers, host := u.host, hall := u.hall, fltHist := u.fltHist, fltDone := u.fltDone
                   heldEvents := u.heldEvents, bru := u.bru } ∧
      (s.sufinDown = false → u.fltDone = s.fltDone + 1 ∧ u.bru = s.bru.tellRecord s.fltDone ∧
        ∃ x, FMap.get none u.fltHist (s.fltDone.toNat % 64) = some x ∧ x.cls = 0x50 ∧ x.state = 3 ∧ x.outcome = 4)) ∧
    (L.state ≠ 0 → ∃ u, exec (.linkSignalLost n) s = .next u ∧ (u.port n.val).state = (if L.state = 4 then 4 else 1) ∧ (u.port n.val).queues = [] ∧
      (u.port n.val).backlog = [] ∧ (u.port n.val).retxQ = [] ∧ (u.port n.val).ctlQ = [] ∧ (u.port n.val).mgmtQ = [] ∧
      (u.port n.val).sent = [] ∧ ((∀ kv ∈ s.ports, kv.2.thru = []) →
        FMap.get 0 (u.port n.val).ctr ctrTxDrop = satAdd32 (FMap.get 0 L.ctr ctrTxDrop) L.queued) ∧
      ∀ q, q ≠ n.val → u.port q = { s.port q with thru := (u.port q).thru }) ∧
    (s.recovery = true → ∀ w, exec (.retrain w n) s = .next s) ∧
    (∀ w : WinId, w.val = 0 → s.recovery = false → L.enable = true → L.state ≠ 0 → L.state ≠ 3 →
      ∃ u, exec (.retrain w n) s = .next u ∧ OnlyPort n.val s u ∧
        u.port n.val = { L with state := 2, lanes := 0, peer := 0, peerDepth := 255 }) ∧
    (L.enable = true → L.state = 1 ∨ L.state = 4 →
      ∃ u, exec (.peerLeavesElectricalIdle n) s = .next u ∧ OnlyPort n.val s u ∧
        u.port n.val = { L with state := 2, lanes := 0, peer := 0, peerDepth := 255 }) ∧
    (∀ w : WinId, w.val = 0 → s.recovery = false → L.enable = true → L.state = 3 → ∀ c ∈ [.retrain w n, .peerLeavesElectricalIdle n],
      ∃ u, exec c s = .next u ∧ OtherPorts n.val s u ∧
        u.port n.val = ({ L with state := 2, lanes := 0, peer := 0, peerDepth := 255 }).count ctrDown 1) ∧
    (∀ w : WinId, w.val ≠ 0 → exec (.retrain w n) s = .next s) ∧
    (L.swapFrame ≠ 0 → L.swapFrame.toNat ≤ s.ns / 65536 → L.swapLate ≤ s.ns / 65536 →
      ∃ u, exec (.slotTableSwap n) s = .next u ∧ OtherPorts n.val s u ∧ Events s u (evtAll s (pageLnk + n.val) 2) ∧
        u = { s with ports := u.ports, headers := u.headers, host := u.host } ∧
        u.port n.val = { L with active := !L.active, swapFrame := 0, swapLate := 0 }) ∧
    (L.swapFrame = 0 ∨ s.ns / 65536 < L.swapFrame.toNat → exec (.slotTableSwap n) s = .next s)

/-- SLOT_DATA changes one entry of the shadow table and the slot's owner, which a loaded image of either owner keeps as it is, with
CFG_REJECT; a write to the active table and a kind the host may not give are rejected
with their event, and in recovery, where the page is not shown, nothing changes (R374–R376, R481, R485, Tables 11.6, 15.4). A slot opens
once: at most 128 cells go out, a timetabled slot's from its owner's queue, which cells that wait in the rim then join; with timetable_on
zero a timetabled slot carries idle cells (R372); a through-run cell that waits 16 slots is dropped and counted (R365, R374, R377, R379,
R383). That kind 0b11 is stored as kind 0 at an ordinary slot is the model's choice, log entry 124.
What it says of choices of the model follows the log: entries 22, 124. -/
def Obligations.SlotsCarryCells : Prop :=
  ∀ (s : State) (n : PortId), let L := s.port n.val
    let slot := (L.slotSel.extractLsb' 0 10).toNat
    (s.recovery = true → ∀ w v, exec (.slotDataWrite w n v) s = .next s) ∧
    (∀ (w : WinId) (v : Word), w.val = 0 → s.recovery = false → slot % 32 ≠ 0 →
      let kind : BitVec 2 := v.extractLsb' 30 2
      (L.slotSel.getLsbD 11 = L.active → ∃ u, exec (.slotDataWrite w n v) s = .next u ∧
        u = { s with headers := u.headers, host := u.host } ∧ Events s u (evtAll s (pageLnk + n.val) 4)) ∧
      (L.slotSel.getLsbD 11 ≠ L.active → L.swapFrame = 0 →
        FMap.get none L.owners slot = (if v.getLsbD 29 then some (v.extractLsb' 25 4).toNat else none) →
        (kind = 1 ∨ (kind = 2 ∧ v.getLsbD 29 = true) → ∃ u, exec (.slotDataWrite w n v) s = .next u ∧
          u = { s with headers := u.headers, host := u.host } ∧ Events s u (evtAll s (pageLnk + n.val) 4)) ∧
        (kind ≠ 1 → (kind = 2 → v.getLsbD 29 = false) → ∃ u, exec (.slotDataWrite w n v) s = .next u ∧ OnlyPort n.val s u ∧
          u.port n.val = { L with tableA := (u.port n.val).tableA, tableB := (u.port n.val).tableB } ∧
          (∀ k, FMap.get {} (if L.active then (u.port n.val).tableA else (u.port n.val).tableB) k =
            if k = slot then { kind := if kind = 3 then 0 else kind, rxPort := v.extractLsb' 16 6, rxSlot := v.extractLsb' 0 10 }
            else FMap.get {} (if L.active then L.tableA else L.tableB) k) ∧
          (if L.active then (u.port n.val).tableB = L.tableB else (u.port n.val).tableA = L.tableA)))) ∧
    (∀ (w : WinId) (v : Word), w.val = 0 → s.recovery = false → slot % 32 ≠ 0 → L.slotSel.getLsbD 11 ≠ L.active → L.swapFrame = 0 →
      v.extractLsb' 30 2 = (0 : BitVec 2) →
      let old := FMap.get none L.owners slot
      let new := if v.getLsbD 29 then some (v.extractLsb' 25 4).toNat else none
      old ≠ new → ∃ u, exec (.slotDataWrite w n v) s = .next u ∧ OtherPorts n.val s u ∧
        (shareFree s old = true → shareFree s new = true → u = { s with ports := u.ports } ∧
          ∀ k, FMap.get none (u.port n.val).owners k = if k = slot then new else FMap.get none L.owners k) ∧
        (shareFree s old = false ∨ shareFree s new = false → (u.port n.val).owners = L.owners ∧
          u = { s with ports := u.ports, headers := u.headers, host := u.host } ∧ (u.header 0 (pageLnk + n.val)).cfgReject = true)) ∧
    (L.state = 3 → L.opened ≠ s.slotNow + 1 →
      ∃ u k, exec (.slotOpen n) s = .next u ∧ u = { s with ports := u.ports } ∧ (u.port n.val).opened = s.slotNow + 1 ∧ k ≤ 128 ∧
        (u.port n.val).txCells = satAdd64 L.txCells k ∧
        (∀ p, s.hall.timetable = true → s.hall.addr ≠ 0 → (L.entry (s.slotNow % 1024)).kind = 1 →
          FMap.get none L.owners (s.slotNow % 1024) = some p →
          OtherPorts n.val s u ∧ (u.port n.val).queue p =
            (L.queue p).drop 128 ++ (L.backlogOf p).take (1024 - ((L.queue p).drop 128).length) ∧ min 128 (L.queue p).length ≤ k ∧
          ∀ q, q ≠ p → (u.port n.val).queue q = L.queue q) ∧
        (s.hall.timetable = false → (L.entry (s.slotNow % 1024)).kind = 1 ∨ (L.entry (s.slotNow % 1024)).kind = 2 → k = 0 ∧
          OtherPorts n.val s u ∧ (u.port n.val).queues = L.queues ∧ (u.port n.val).thru = L.thru ∧
          (u.port n.val).retxQ = L.retxQ ∧ (u.port n.val).ctlQ = L.ctlQ ∧ (u.port n.val).mgmtQ = L.mgmtQ)) ∧
    (L.opened = s.slotNow + 1 → exec (.slotOpen n) s = .next s) ∧
    (∀ t, (L.thru.find? fun t => t.since + 16 ≤ s.slotNow) = some t →
      ∃ u, exec (.thruExpire n) s = .next u ∧ OnlyPort n.val s u ∧
        u.port n.val = ({ L with thru := L.thru.erase t }).count ctrThruDrop 1)

/-- Cells: the words of a cell hold all of it, and a word with its own check bits is received as it is (R365); a spoiled cell, or one
with a word that is not correctable, is counted and named in a NAK, and a retransmission that is spoiled is due again, the third time with
the port FAILED; codewords corrected for an idle cell (kind 0) are counted in FEC_CORR, and it does nothing else; a good one for another
module is held for through-running, or discarded where the peer is not in the hall's plan; a tile message's head for a partition of this
module enters by its gate. A NAK sends the cell it names again, an idle one too; one for a cell no longer held takes the port to FAILED. A
whole outbound SEND goes by its route entry into the port's queue while that has room, and waits otherwise; a port whose neighbour is in
electrical idle discards it; one with no entry is a ROUTE_FAULT of the gate tile (R379–R384, R386–R388).
What it says of choices of the model follows the log: entries 22, 28, 100, 113. -/
def Obligations.CellsCross : Prop :=
  (∀ c : Cell, cellOf (cellWords c) = c) ∧ (∀ w : Word, fixWord w (Config.secded w) = some w) ∧
  ∀ (s : State) (n : PortId) (frame : BitVec 16) (slot : Fin 1024) (idx : Fin 128), let L := s.port n.val
    (∀ raw (x : CellNote), L.state = 3 → x.codeword = true ∨ cellReceived raw = none →
      let head := (spoiledHeader raw x).map fun w => cellOf [w]
      let again := (head.map (·.retx)).getD x.again
      let counted : LinkPort → LinkPort := fun P => { P.count ctrFecUncorr 1 with ctlQ := P.ctlQ ++ [.nak frame.toNat slot.val idx.val] }
      (again = false → ∃ u, exec (.linkCellRx n frame slot idx raw x 0) s = .next u ∧ OnlyPort n.val s u ∧
        u.port n.val = { counted L with
          spoiled := L.spoiled ++ [{ frame := frame.toNat, slot := slot.val, idx := idx.val, times := 1 }]
          waiting := L.waiting ++ [.due frame.toNat slot.val idx.val ((head.map (cellDest s)).getD .unknown)] }) ∧
      (∀ y rest, again = true → L.spoiled = y :: rest →
        (y.times < 2 → ∃ u, exec (.linkCellRx n frame slot idx raw x 0) s = .next u ∧ OnlyPort n.val s u ∧
          u.port n.val = { counted L with spoiled := rest ++ [{ y with times := y.times + 1 }] }) ∧
        (2 ≤ y.times → ∃ u, exec (.linkCellRx n frame slot idx raw x 0) s = .next u ∧ OtherPorts n.val s u ∧
          (u.port n.val).state = 4))) ∧
    (∀ raw c x, L.state = 3 → x.codeword = false → cellReceived raw = some c → c.kind = 0 → c.retx = false →
      exec (.linkCellRx n frame slot idx raw x 0) s = .next s) ∧
    (∀ raw c x fec, L.state = 3 → x.codeword = false → cellReceived raw = some c → c.kind = 0 → c.retx = false →
      ∃ u, exec (.linkCellRx n frame slot idx raw x fec) s = .next u ∧ OnlyPort n.val s u ∧
      u.port n.val = { L with ctr := (u.port n.val).ctr } ∧
      ∀ off, FMap.get 0 (u.port n.val).ctr off =
        if off = ctrFecCorr then satAdd32 (FMap.get 0 L.ctr off) fec.toNat else FMap.get 0 L.ctr off) ∧
    (∀ raw c x, L.state = 3 → x.codeword = false → cellReceived raw = some c → dueOf L.waiting = [] → c.retx = false → c.kind ≠ 0 →
        c.kind ≠ 6 → c.kind ≠ 7 → c.destHall ≠ 0 → c.destHall ≠ s.hall.addr →
      (x.planned = true → (∀ kv ∈ s.ports, kv.2.state = 1 → kv.2.claims n.val slot.val = false) →
        ∃ u, exec (.linkCellRx n frame slot idx raw x 0) s = .next u ∧ OnlyPort n.val s u ∧
          u.port n.val = { L with
            rxCells := satAdd64 L.rxCells 1, thru := L.thru ++ [{ slot := slot.val, since := s.slotNow, cell := c }] }) ∧
      (x.planned = false → ∃ u, exec (.linkCellRx n frame slot idx raw x 0) s = .next u ∧ OnlyPort n.val s u ∧
        u.port n.val = ({ L with rxCells := satAdd64 L.rxCells 1 }).count ctrThruDrop 1)) ∧
    (∀ raw c x t, L.state = 3 → x.codeword = false → cellReceived raw = some c → dueOf L.waiting = [] → c.retx = false → c.kind = 1 → s.hall.addr ≠ 0 → c.destHall = s.hall.addr →
        tileAt c.target.toNat = some t → (s.part c.destPart.toNat).loaded = true →
      ∃ u, exec (.linkCellRx n frame slot idx raw x 0) s = .next u ∧ u = { s with ports := u.ports, parts := u.parts } ∧
        OtherPorts n.val s u ∧ OtherParts c.destPart.toNat s u ∧
        (u.part c.destPart.toNat).rimOut = (s.part c.destPart.toNat).rimOut ++ [(if c.flow then .flow else .sched,
          { src := .link n.val, dst := t, body := .sendHead (c.payload.extractLsb' 0 16).toNat (c.payload.extractLsb' 16 16).toNat })]) ∧
    (∀ c, L.state = 3 → L.sentAt frame.toNat slot.val idx.val = some c →
      ∃ u, exec (.nakRx n frame slot idx) s = .next u ∧ OnlyPort n.val s u ∧
        u.port n.val = { L.count ctrRetx 1 with retxQ := L.retxQ ++ [c.again] }) ∧
    (L.state = 3 → L.sentAt frame.toNat slot.val idx.val = none →
      ∃ u, exec (.nakRx n frame slot idx) s = .next u ∧ (u.port n.val).state = 4 ∧ OtherPorts n.val s u) ∧
    (∀ (p : PartId) (o : Outbound), let P := s.part p.val
      let T := s.tile P.gate
      let route := P.image.bind fun img => img.outRoutes.find? fun r => r.index == o.g0 - outboundBase
      (T.outbound.find? fun o => o.got.length == o.n) = some o →
      (∀ r, route = some r → let Q := s.port r.port
        let room := (Q.queue p.val).length + (tileCells r o.got).length ≤ 1024
        let leaves := fun (u : State) => exec (.outboundSend p) s = .next u ∧ u = { s with tiles := u.tiles, ports := u.ports } ∧
          (∀ v, u.tile v = if v = P.gate then { T with outbound := T.outbound.erase o } else s.tile v) ∧ OtherPorts r.port s u
        (Q.state ≠ 1 → Q.backlogOf p.val = [] → room → ∃ u, leaves u ∧
          (u.port r.port).queue p.val = Q.queue p.val ++ tileCells r o.got ∧
          ∀ q, q ≠ p.val → (u.port r.port).queue q = Q.queue q) ∧
        (Q.state ≠ 1 → Q.backlogOf p.val ≠ [] ∨ ¬ room → exec (.outboundSend p) s = .next s) ∧
        (Q.state = 1 → ∃ u, leaves u ∧ u.port r.port = Q.count ctrTxDrop (tileCells r o.got).length)) ∧
      (route = none → ∃ u, exec (.outboundSend p) s = .next u ∧ OnlyTile P.gate s u ∧ (u.tile P.gate).halted = true ∧
        (u.tile P.gate).outbound = T.outbound.erase o ∧ (u.tile P.gate).pad = T.pad ∧
        (T.faultInfo = 0 → (u.tile P.gate).faultInfo = faultWord codeRoute 0 true T.pc)))

/-! ### Hall time and the host port -/

/-- Hall time (R366–R370, R372, Table 11.5). A time cell on an UP port gives the port its peer and the peer's depth and notes when the
peer's marker came; where it completes an exchange, the delay and the offset are half the sum and half the difference of the two ways. On
the upstream port the offset is OFFSET_LAST, the one step out of FREQ_LOCK, and from then on a correction that each clk slews. A root
keeps its own time and raises ROOT_CONFLICT at another root's cell. At a HALL_EPOCH edge the root's time becomes EPOCH_NEXT, and a module
that is not the root only checks. The lock of HALL_REF, its loss and the end of holdover move the unit between its states.
What it says of choices of the model follows the log: entries 30, 113. -/
def Obligations.HallTimeIsKept : Prop :=
  ∀ (s : State), let H := s.hall
    (∀ (n : PortId) (m : TimeMsg), let L := s.port n.val
      let used := FMap.set 0 s.cal.inForce (65536 * 7 + n.val) (FMap.get 0 s.cal.user (65536 * 7 + n.val))
      (L.state ≠ 3 → exec (.timeCellRx n m) s = .next s) ∧
      (L.state = 3 → ∃ u, exec (.timeCellRx n m) s = .next u ∧ OtherPorts n.val s u ∧
        u = { s with ports := u.ports, cal := { s.cal with inForce := used }, hall := u.hall, headers := u.headers, host := u.host } ∧
        u.port n.val = { L with
          delay := (u.port n.val).delay, peer := BitVec.ofNat 32 (m.hall.toNat + 65536 * (m.port % 64)), peerDepth := min m.depth 255
          heard := some (BitVec.ofInt 16 (m.t1.tdiv (Int.ofNat frameUnits)), markerTime s n.val m) } ∧
        (m.back = none → (u.port n.val).delay = L.delay) ∧
        (∀ bits t4 F, m.back = some (bits, t4) → (L.markers.find? fun F => decide (F % 65536 = bits.toNat)) = some F →
          let there := markerTime s n.val m - m.t1
          let here := t4 - Int.ofNat (F * frameUnits)
          let offset := (there - here).tdiv 2
          (u.port n.val).delay = BitVec.ofInt 32 ((there + here).tdiv 2) ∧
          (H.root = false → m.depth < 15 → (∀ q, q ≠ n.val → (s.port q).state ≠ 3) →
            u.hall.upstream = n.val ∧ u.hall.offset = BitVec.ofInt 32 offset ∧
            (H.state = 1 → H.stepped = false → H.refOn = true →
              u.hall.now = (Int.ofNat H.now - offset).toNat ∧ u.hall.stepped = true) ∧
            (H.state = 2 → H.refOn = true → H.upstream = n.val →
              u.hall.now = H.now ∧ u.hall.slew = -(meanOffset ((offset :: H.offsets).take 16)) * 47000000))) ∧
        (H.root = true → u.hall = H) ∧ (H.root = true → m.depth ≠ 0 → u.headers = s.headers) ∧
        (H.root = true → m.depth = 0 → Events s u (evtAll s pageHal 4)))) ∧
    (H.refOn = false → exec .hallEpochEdge s = .next s) ∧
    (H.refOn = true → H.root = true → H.state = 2 → ∃ u, exec .hallEpochEdge s = .next u ∧
      u = { s with hall := { H with now := H.epochNext.toNat * 65536, rem := 0, slew := 0, epochNext := H.epochNext + 1000000000 } }) ∧
    (H.refOn = true → H.root = true → H.state ≠ 2 → ∃ u, exec .hallEpochEdge s = .next u ∧ Events s u (evtAll s pageHal 0) ∧
      u = { s with headers := u.headers, host := u.host, hall := { H with
        now := H.epochNext.toNat * 65536, rem := 0, slew := 0, epochNext := H.epochNext + 1000000000
        state := 2, timetable := true, depth := 0 } }) ∧
    (let past := H.now % (1000000000 * 65536)
     let off := min past (1000000000 * 65536 - past)
     H.refOn = true → H.root = false →
      (5 * 65536 < off → ∃ u, exec .hallEpochEdge s = .next u ∧ u = { s with headers := u.headers, host := u.host } ∧
        Events s u (evtAll s pageHal 3)) ∧
      (off ≤ 5 * 65536 → exec .hallEpochEdge s = .next s)) ∧
    exec .hallRefLock s = .next { s with hall := { H with
      refOn := true, state := if H.state = 0 then 1 else H.state, stepped := if H.state = 0 then false else H.stepped
      offsets := if H.refOn then H.offsets else [] } } ∧
    (H.state = 2 → ∃ u, exec .hallRefLost s = .next u ∧ Events s u (evtAll s pageHal 1) ∧
      u = { s with headers := u.headers, host := u.host
                   hall := { H with refOn := false, offsets := [], state := 3, depth := 0xFF, since := s.ns } }) ∧
    (H.state ≠ 2 → exec .hallRefLost s = .next { s with hall := { H with
      refOn := false, offsets := [], state := if H.state = 1 then 0 else H.state } }) ∧
    (H.state = 3 → H.timetable = true → H.since + 1000000 * max 1 (min 200 H.holdover) ≤ s.ns →
      ∃ u, exec .holdoverExpire s = .next u ∧ Events s u (evtAll s pageHal 2) ∧
        u = { s with headers := u.headers, host := u.host, hall := { H with timetable := false } }) ∧
    (H.state ≠ 3 ∨ H.timetable = false ∨ s.ns < H.since + 1000000 * max 1 (min 200 H.holdover) →
      exec .holdoverExpire s = .next s)

/-- The host port (R283, R390–R393, R495): its loss clears each function's bus mastering and fails prompt fetches in progress, and nothing
else of a row; its return is shown, and counted after a loss; a function that may be a bus master again, and is not in D3hot, has its
unconsumed records written again; a write of a vector's entry holds its address, data and mask, and an unmasked vector
sends the message its pending bit holds; a function-level reset frees the rows, stops the rings and gives up the handles of its
interface, and no other row; one of the physical function frees those of every interface and counts for it alone.
What it says of choices of the model follows the log: entries 9, 59, 60, 119. -/
def Obligations.HostPortComesAndGoes : Prop :=
  ∀ (s : State), let h := s.host
    (FMap.wf {} s.vifs = true → ∀ why, (why = .linkLoss → h.up = true) → ∃ u, exec (.hostDown why) s = .next u ∧ u.host.up = false ∧
      u = { s with vifs := u.vifs, rows := u.rows, headers := u.headers, host := u.host } ∧ Events s u (evtAll s pagePci 0) ∧
      (∀ w, u.vif w = { s.vif w with busMaster := false, d3hot := false, enabled := false }) ∧
      ∀ r, u.row r = { s.row r with fetch := if (s.row r).fetch = .running then .failed else (s.row r).fetch }) ∧
    (∀ sp wd fl, ∀ c ∈ [.perstRelease sp wd fl, .hostLinkActive sp wd fl], let h1 := { h with
        up := true, wasUp := true, speed := sp.val, width := wd.toNat, flit := fl }
      (h.up = true ∨ h.wasUp = false → exec c s = .next { s with host := h1 }) ∧
      (h.up = false → h.wasUp = true → ∃ u, exec c s = .next u ∧ u = { s with headers := u.headers, host := u.host } ∧
        Events s u (evtAll s pagePci 1) ∧
        u.host = { h1 with retrains := satAdd32 h.retrains 1, sent := u.host.sent, pended := u.host.pended })) ∧
    (∀ c : ConfigWrite, let w := c.fn.val
      let before := (s.vif w).busMaster = true ∧ (s.vif w).d3hot = false
      let now := c.busMaster = true ∧ c.d3hot = false
      ∃ u, exec (.busMasterEnable c) s = .next u ∧ u = { s with vifs := u.vifs, host := u.host } ∧
      (∀ v, u.vif v = if v = w then { s.vif v with busMaster := c.busMaster, d3hot := c.d3hot, enabled := true } else s.vif v) ∧
      (before ∨ ¬ now → u.host = h) ∧
      (¬ before → now → ∃ ws, u.host = { h with posted := h.posted ++ ws, rewrites := satAdd32 h.rewrites ws.length } ∧
        ws.length = (if h.up then ((s.rings.filter fun kv => kv.1 / 32 == w && kv.2.enable).map fun kv => kv.2.unconsumed.length).sum
          else 0))) ∧
    (∀ (w : WinId) (e : VectorWrite), let k := 64 * w.val + e.vec.val
      let goes := FMap.get false h.pended k = true ∧ e.mask = false
      ∃ u, exec (.vectorUnmask w e) s = .next u ∧ u = { s with host := u.host } ∧
        u.host = { h with unmasked := u.host.unmasked, msix := u.host.msix, pended := u.host.pended, sent := u.host.sent } ∧
        (∀ j, FMap.get false u.host.unmasked j = if j = k then !e.mask else FMap.get false h.unmasked j) ∧
        (∀ j, FMap.get {} u.host.msix j = if j = k then { addr := e.addr, data := e.data } else FMap.get {} h.msix j) ∧
        (goes → (∀ j, FMap.get false u.host.pended j = if j = k then false else FMap.get false h.pended j) ∧
          u.host.sent = h.sent ++ [(w.val, e.vec.val, { addr := e.addr, data := e.data })]) ∧
        (¬ goes → u.host.pended = h.pended ∧ u.host.sent = h.sent)) ∧
    (∀ w : WinId, w.val ≠ 0 → FMap.wf {} s.rows = true → FMap.wf {} s.handles = true →
      ∃ u, exec (.functionLevelReset w) s = .next u ∧
      (∀ r, (s.row r).owner = w.val → (s.row r).state ≠ 0 → (u.row r).state = 0 ∧ (u.row r).gen = (s.row r).gen + 1) ∧
      (∀ r, (s.row r).owner ≠ w.val → u.row r = s.row r) ∧
      (∀ k, k < 32 → (u.ring w.val k).enable = false ∧ ∀ v, v ≠ w.val → u.ring v k = s.ring v k) ∧
      (∀ i, (s.handle i).live = true → (s.handle i).owner = w.val → (u.handle i).live = false) ∧
      (∀ i, (s.handle i).owner ≠ w.val → u.handle i = s.handle i) ∧
      ∀ v, u.vif v = if v = w.val then { s.vif v with flrCount := satAdd32 (s.vif v).flrCount 1 } else s.vif v) ∧
    (∀ w : WinId, w.val = 0 → FMap.wf {} s.rows = true → FMap.wf {} s.handles = true →
      ∃ u, exec (.functionLevelReset w) s = .next u ∧
      (∀ r, (s.row r).owner < 128 → (u.row r).state = 0) ∧ (∀ v k, v < 128 → k < 32 → (u.ring v k).enable = false) ∧
      (∀ i, (s.handle i).owner < 128 → (u.handle i).live = false) ∧
      ∀ v, u.vif v = if v = 0 then { s.vif v with flrCount := satAdd32 (s.vif v).flrCount 1 } else s.vif v)

/-! ### Faults and recovery -/

/-- An error event: the tile that found an uncorrectable word halts with FAULT_INFO code 7, and the access that met it delivers nothing
(R44, R122, R400); classes 0x40 to 0x61 are a record alone, a master's word makes its master fetched again; a tile's own class is a
hold with a queued record and a strike; a controller in reset is held one event per unit, with its time. The oldest record starts its
partition's recovery, or halts it; the purge ends it: every tile in its start state with its scratchpad as it was, the unretired manifests
to be issued again; it waits while a master that it needs is fetched again (R402, R406–R410, R422, R427). Once the queue is empty a
partition that halted for a full queue restarts by itself (R412); RESTART ends a halt safe (R413). In reset the controller starts and ends
no recovery (R422).
What it says of choices of the model follows the log: entries 36, 56, 83, 84, 94, 103, 104. -/
def Obligations.ErrorsHoldAndRecover : Prop :=
  ∀ s : State,
    (∀ e : ErrEvent, regionClass e.cls = false → (∀ d, e.found = .master d → e.cls ≠ 0x40) → let h := haltFinder s e
      OnlyTiles s h ∧ (∀ t, h.tile t = if e.tile = some t ∧ stepClass e.cls = true then { (s.tile t).dropFound e.found with
        halted := true, wait := .none
        faultInfo := if (s.tile t).faultInfo = 0 then faultWord 7 0 true (s.tile t).pc else (s.tile t).faultInfo } else s.tile t) ∧
      (s.sufinDown = false → exec (.errorEvent e) s =
        .next (if e.region.isSome then tellClocks h (takeEvent h e) else takeEvent h e)) ∧
      (s.sufinDown = true → exec (.errorEvent e) s = .next (if s.heldEvents.any (fun x => sameUnit e x.ev) then h
        else { h with heldEvents := s.heldEvents ++ [{ ev := e, time := s.ns, step := eventStep s e }] }))) ∧
    (∀ e : ErrEvent, s.sufinDown = false → e.part = none ∨ e.tile = none → stepClass e.cls = false → haltClass e.cls = false →
        regionClass e.cls = false →
      ((∀ d, e.found = .master d → e.cls ≠ 0x40) → exec (.errorEvent e) s = .next { s with
        fltHist := FMap.set none s.fltHist (s.fltDone.toNat % 64) (some { recordOf s e with state := 3, outcome := 4 })
        fltDone := s.fltDone + 1, bru := s.bru.tellRecord s.fltDone }) ∧
      (∀ d, e.found = .master d → e.cls = 0x40 → ∃ u, exec (.errorEvent e) s = .next u ∧ u.fltDone = s.fltDone + 1 ∧
        u = { s with house := u.house, ports := u.ports, fltHist := u.fltHist, fltDone := u.fltDone, bru := u.bru } ∧
        u.master d = none ∧ (∀ g, g ≠ d → u.master g = s.master g) ∧
        ((shardOf s d).isSome = true → ∃ r ∈ u.house.repairs, r.refetch = true ∧ r.digest = d))) ∧
    (∀ (e : ErrEvent) (p : PartId) (r : RegionId), let P := s.part p.val
      s.sufinDown = false → e.part = some p → e.region = some r → stepClass e.cls = true → P.loaded = true → P.rstate = 0 →
      s.fltQ.length < 16 → FMap.get none s.strikes r.val = none →
      ∃ u, exec (.errorEvent e) s = .next u ∧ OtherParts p.val s u ∧
        u = { s with
          parts := u.parts, fltQ := u.fltQ, strikes := u.strikes, struck := u.struck, headers := u.headers, host := u.host
          tiles := (haltFinder s e).tiles } ∧
        (u.part p.val).frozen = true ∧ (u.part p.val).hsFault = true ∧ (u.part p.val).rstate = 1 ∧ (u.part p.val).detected = s.ns ∧
        (u.part p.val).inflight = P.inflight ∧ u.fltQ = s.fltQ ++ [{ recordOf s e with slot := freeFltSlot s.fltQ }] ∧
        ∀ q, FMap.get none u.strikes q = if q = r.val then some (0, P.oldest) else FMap.get none s.strikes q) ∧
    -- every queued record has a slot of its own (R496)
    (s.fltQ.length < 16 →
      freeFltSlot s.fltQ < 16 ∧ ∀ x ∈ s.fltQ, x.slot ≠ freeFltSlot s.fltQ) ∧
    (s.sufinDown = true → exec .recoveryStart s = .next s ∧ (∀ p, exec (.purgeEnd p) s = .next s) ∧
      ∀ w p, exec (.restart w p) s = .next s) ∧
    (∀ x p, s.sufinDown = false → (s.fltQ.find? fun x => x.state == 0 && (match x.part with
          | some p => !(s.part p).recovering
          | none => true)) = some x → x.part = some p → s.untold = 0 → (s.part p).rstate ≠ 3 → (s.part p).loaded = true →
      (stepClass x.cls = true → (s.part p).streak + 1 < 4 →
        ∃ u, exec .recoveryStart s = .next u ∧ OtherParts p s u ∧
          u = { s with parts := u.parts, fltQ := u.fltQ, headers := u.headers, host := u.host } ∧
          (u.part p).recovering = true ∧ (u.part p).rstate = 1 ∧ (u.part p).divert = none ∧
          (u.part p).streak = (if (s.part p).streak = 0 ∧ (s.part p).oldest = 0 then 0 else (s.part p).streak + 1) ∧
          u.fltQ = s.fltQ.map fun y => if y = x then { y with state := 1 } else y) ∧
      (haltClass x.cls = true →
        ∃ u, exec .recoveryStart s = .next u ∧ u.tiles = s.tiles ∧ u.rows = s.rows ∧
          (u.part p).rstate = 3 ∧ (u.part p).frozen = true ∧ (u.part p).hsFault = true ∧ (u.part p).recovering = false ∧
          (u.part p).cause = (if x.cls = 0x20 then 2 else if x.cls = 0x21 then 3 else 4) ∧
          u.fltQ = s.fltQ.filter (fun y => !(y.part == some p)) ∧
          ∀ q, q ≠ p → if q < 16 ∧ u.fltQ = [] ∧ (s.part q).rstate = 3 ∧ (s.part q).cause = 1 then
              (u.part q).rstate = 1 ∧ (u.part q).recovering = true ∧ (u.part q).cause = 0
            else u.part q = s.part q)) ∧
    (∀ p : PartId, let P := s.part p.val
      let mine := s.fltQ.filter fun x => x.part == some p.val
      (P.recovering = false → exec (.purgeEnd p) s = .next s) ∧
      (s.sufinDown = false → P.recovering = true → lossVerdict s p.val = .ok none →
          (∀ x ∈ mine, stepClass x.cls = true ∧ x.cls ≠ 0x10) → (∀ x ∈ P.owed, x.cls ≠ 0x10) →
        ∃ u, exec (.purgeEnd p) s = .next u ∧ (u.part p.val).rstate = 0 ∧ (u.part p.val).recovering = false ∧
          (u.part p.val).frozen = false ∧ (u.part p.val).running = true ∧ (u.part p.val).credits = 1 ∧
          (u.part p.val).firstAfter = true ∧ (u.part p.val).rootMax = 0 ∧ (u.part p.val).holdClk = 0 ∧ (u.part p.val).owed = [] ∧
          (u.part p.val).inflight = P.inflight.map (fun x => { x with sent := false, again := true }) ∧
          (∀ x ∈ u.fltQ, x.part ≠ some p.val) ∧
          ∀ t, tileKey t ∈ rectTiles P.gx0 P.gy0 P.width P.height P.lost →
            (u.tile t).starting = true ∧ (u.tile t).pc = 0 ∧ (u.tile t).halted = false ∧ (u.tile t).fifo = [] ∧ (u.tile t).sb = [] ∧
            (u.tile t).pad = (s.tile t).pad) ∧
      (s.sufinDown = false → P.recovering = true → ∀ r, lossVerdict s p.val = .ok r → (∀ x ∈ mine, haltClass x.cls = false) →
          mastersDue (purge s p.val) p.val (mine ++ P.owed) r ≠ [] →
        ∃ u, exec (.purgeEnd p) s = .next u ∧ u.part p.val = (purge s p.val).part p.val ∧ (u.part p.val).recovering = true ∧
          u.fltQ = s.fltQ ∧ ∀ d ∈ mastersDue (purge s p.val) p.val (mine ++ P.owed) r, u.master d = none)) ∧
    (∀ (w : WinId) (p : PartId), let P := s.part p.val
      (w.val ≠ 0 ∨ s.recovery = true → exec (.restart w p) s = .next s) ∧
      (w.val = 0 → s.recovery = false → s.sufinDown = false → P.recovering = true ∨ P.rstate = 1 ∨ P.rstate = 2 →
        ∃ u, exec (.restart w p) s = .next u ∧ u = { s with headers := u.headers, host := u.host } ∧ Events s u (evt 0 pageFlt 5)) ∧
      (w.val = 0 → s.recovery = false → s.sufinDown = false → P.recovering = false → P.rstate = 3 →
        P.cause ∈ [1, 2, 3, 4, 7, 8] → ∃ u, exec (.restart w p) s = .next u ∧ OnlyPart p.val s u ∧
          u.part p.val = { P with cause := 0, recovering := true, streak := 0, rstate := 1 }))

/-- A region is lost at once, whether or not the controller runs: by a fuse trip with what its tiles held, by the stop of its second clock
feed with its columns kept; the feeds that it drives stop, and a region whose live feed stops takes the other; a partition that holds it
goes into diversion. A stack that goes out is recorded and its masters are fetched again; the controller's reset holds events until it
returns, with the times they were detected at; a Signal Box reset holds every running partition for replay (R401, R408, R414–R416, R422,
R472).
What it says of choices of the model follows the log: entries 36, 39, 94, 104, 109, 118. -/
def Obligations.SinglePartsFail : Prop :=
  ∀ s : State,
    let lone := fun (r : Nat) => ∀ q, q ≠ r → (s.region q).deadA = false ∧ (s.region q).deadB = false
    let fed := fun (r q : Nat) (b : Bool) => feedFrom q b = some r
    -- a feed of a region whose other feed lives has stopped
    let feedGone : Region → Bool → Region := fun R b => { R with
      deadA := R.deadA || !b, deadB := R.deadB || b, onB := if R.onB = b then !b else R.onB
      feedSwitch := if R.onB = b then satAdd32 R.feedSwitch 1 else R.feedSwitch }
    let neighbours := fun (r : Nat) (u : State) => ∀ q, q ≠ r →
      (¬ fed r q false → ¬ fed r q true → u.region q = s.region q) ∧ ∀ b, fed r q b → u.region q = feedGone (s.region q) b
    -- no line is on its way to the region
    let quiet := fun (r : Nat) => FMap.wf Tile.reset s.tiles = true ∧ FMap.wf {} s.parts = true ∧
      (∀ t, regionOf t = r → (s.tile t).low = []) ∧ ∀ p, ∀ f ∈ (s.part p).pageOut ++ (s.part p).weightOut, regionOf f.dst ≠ r
    (∀ r : RegionId, lone r.val → (s.region r.val).lostBy = 0 →
      ∃ u, exec (.fuseTrip r) s = .next u ∧ u.region r.val = { s.region r.val with inService := false, lostBy := 0x30 } ∧
        neighbours r.val u ∧ u.rows = s.rows ∧
        (∀ p, (u.part p).pageOut = (s.part p).pageOut.filter (fun f => regionOf f.dst != r.val) ∧
          (u.part p).weightOut = (s.part p).weightOut.filter (fun f => regionOf f.dst != r.val)) ∧
        (quiet r.val → ∀ t, u.tile t = if regionOf t = r.val then
          { Tile.reset with part := (s.tile t).part, deferMax := (s.tile t).deferMax } else s.tile t)) ∧
    -- the fuse of a region that is lost already opens too
    (∀ r : RegionId, (s.region r.val).lostBy ≠ 0 → (s.region r.val).lostBy ≠ 0x30 →
      ∃ u, exec (.fuseTrip r) s = .next u ∧ u.region r.val = { s.region r.val with inService := false, lostBy := 0x30 } ∧
        ∀ q, q ≠ r.val → u.region q = s.region q) ∧
    (∀ r : RegionId, lone r.val → quiet r.val → (s.region r.val).lostBy = 0 → s.sufinDown = false → s.fltQ.length < 16 →
      (partOfRegion s r.val = none →
        ∃ u x, exec (.fuseTrip r) s = .next u ∧ (∀ q, u.part q = s.part q) ∧
          u.fltQ = s.fltQ ++ [x] ∧ x.cls = 0x30 ∧ x.region = some r.val ∧ x.part = none ∧ x.time = s.ns) ∧
      (∀ p : PartId, partOfRegion s r.val = some p.val → (s.part p.val).loaded = true → (s.part p.val).rstate = 0 →
        ∃ u x, exec (.fuseTrip r) s = .next u ∧
          (u.part p.val).frozen = true ∧ (u.part p.val).rstate = 2 ∧ OtherParts p.val s u ∧
          u.fltQ = s.fltQ ++ [x] ∧ x.cls = 0x30 ∧ x.region = some r.val ∧ x.part = some p.val ∧ x.time = s.ns)) ∧
    (∀ r : RegionId, let R := s.region r.val
      let other := fun (b : Bool) => if b then R.deadB else R.deadA
      (other R.onB = false → other (!R.onB) = false →
        (∃ u, exec (.clockFeedStop ⟨r, false⟩) s = .next u ∧ u = { s with regions := u.regions, headers := u.headers, host := u.host } ∧
          Events s u (evt 0 pageFlt 6) ∧ ∀ q, u.region q = if q = r.val then feedGone R R.onB else s.region q) ∧
        (∃ u, exec (.clockFeedStop ⟨r, true⟩) s = .next u ∧ u = { s with regions := u.regions } ∧
          ∀ q, u.region q = if q = r.val then feedGone R (!R.onB) else s.region q)) ∧
      (other R.onB = false → other (!R.onB) = true → R.lostBy = 0 → lone r.val → quiet r.val → partOfRegion s r.val = none →
        ∃ u, exec (.clockFeedStop ⟨r, false⟩) s = .next u ∧ u.rows = s.rows ∧ neighbours r.val u ∧
          u.region r.val = { R with deadA := true, deadB := true, inService := false, lostBy := 0x33 } ∧
          ∀ t, u.tile t = if regionOf t = r.val then { Tile.reset with
            part := (s.tile t).part, deferMax := (s.tile t).deferMax, column := (s.tile t).column, side := (s.tile t).side }
          else s.tile t)) ∧
    (∀ (k : StackId) parked, let h := s.unit (144 + k.val)
      (h.out = true → exec (.stackOut k parked) s = .next s) ∧
      (h.out = false → s.sufinDown = false → ∃ u, exec (.stackOut k parked) s = .next u ∧
        u = { s with heat := u.heat, fltHist := u.fltHist, fltDone := s.fltDone + 1, bru := s.bru.tellRecord s.fltDone
                     house := u.house, ports := u.ports, headers := u.headers, host := u.host } ∧
        (∀ m ∈ s.house.masters, m.home = k.val → u.master m.digest = none) ∧
        (∀ d, (∀ m ∈ s.house.masters, m.digest = d → m.home ≠ k.val) → u.master d = s.master d) ∧
        ∀ q, u.unit q = if q = 144 + k.val then { h with out := true, parked := parked } else s.unit q)) ∧
    exec .sufinReset s = .next { s with sufinDown := true } ∧
    (s.sufinDown = false → exec .sufinReturn s = .next s) ∧
    (s.sufinDown = true → ∃ x u, x.cls = 0x60 ∧ x.state = 3 ∧ x.time = s.ns ∧
      u = { s with sufinDown := false, heldEvents := []
                   fltHist := FMap.set none s.fltHist (s.fltDone.toNat % 64) (some x), fltDone := s.fltDone + 1
                   bru := s.bru.tellRecord s.fltDone } ∧
      exec .sufinReturn s = .next (s.heldEvents.foldl (fun v h => takeAt v h.ev h.time h.step) u)) ∧
    ∃ u, exec .signalBoxReset s = .next u ∧ u.tiles = s.tiles ∧ u.rows = s.rows ∧
      ∀ p, p < 16 → if (s.part p).loaded = true ∧ (s.part p).rstate = 0 then
          (u.part p).frozen = true ∧ (u.part p).hsFault = true ∧
          ((s.part p).streak < 3 → (u.part p).rstate = 1 ∧ (u.part p).recovering = true ∧ (u.part p).divert = none ∧
            (u.part p).streak = if (s.part p).streak = 0 ∧ (s.part p).oldest = 0 then 0 else (s.part p).streak + 1)
        else u.part p = s.part p

/-! ### Power, sensing and wear -/

/-- The governor: the duty lever's rule and the level's step of one; the fast limit; the column read duty of a window measured from the
tiles' reads, and the holds that bring the next window's duty within D (R28, R29, R444, R445); the cap; busbars; shutdown halts every
partition with cause THERMAL (R440–R447).
What it says of choices of the model follows the log: entries 31, 37, 38, 46, 58. -/
def Obligations.PowerIsGoverned : Prop :=
  ∀ s : State, let G := s.gov
    (∀ g : GovReading, ∃ u, exec (.governorTick g) s = .next u ∧ u.rows = s.rows ∧ u.gov.p1ms = g.p1ms ∧ u.gov.p1s = g.p1s ∧
      u.gov.cap = G.cap ∧ u.gov.capUser = G.capUser ∧ u.gov.busA = G.busA ∧ u.gov.busB = G.busB ∧
      (G.shutdown = true → u.gov.shutdown = true) ∧
      (let beyond := if s.limit < (g.p1ms : Rat) then G.beyond + 1 else 0
       u.gov.beyond = beyond ∧ u.gov.duty =
         if 28000 < g.p1ms ∨ s.limit < (g.p1s : Rat) ∨ 20 ≤ beyond then max (G.duty - 20) 20
         else if (g.p1ms : Rat) ≤ s.limit * (98 / 100) ∧ (g.p1s : Rat) ≤ s.limit * (98 / 100) then min (G.duty + 10) 280 else G.duty) ∧
      (g.inletA < 0 → g.inletB < 0 → u.gov.tin = 640) ∧
      (0 ≤ g.inletA → g.inletA ≤ g.inletB → g.inletB ≤ 1600 → u.gov.tin = g.inletB) ∧
      (G.level ≤ 15 → u.gov.level ≤ 15 ∧ u.gov.level ≤ G.level + 1 ∧ G.level ≤ u.gov.level + 1)) ∧
    (∀ watts, 28500 < watts → ∃ u, exec (.fastLimit watts) s = .next u ∧ Events s u (evtAll s pageThm 8) ∧
      u = { s with gov := { G with duty := max (G.duty - 40) 20 }, headers := u.headers, host := u.host }) ∧
    (∀ watts, watts ≤ 28500 → exec (.fastLimit watts) s = .next s) ∧
    (∀ first : PartId, let total := linesRead s fun _ => true
     (1000 * total ≤ G.duty * fullWindow → G.carrier = none → exec (.dutyWindow first) s = .next (clearReads s)) ∧
     -- once every line read was a partition's, the holds bring the predicted duty within D
     ((∀ kv ∈ s.tiles, kv.2.reads ≠ 0 → kv.2.part.isSome = true) →
       1000 * (1024 * total - ((dutyHolds s first).map fun a => a.2 * linesRead s (fun T => T.part.map (·.val) == some a.1)).sum) ≤
         1024 * G.duty * fullWindow) ∧
     (FMap.wf {} s.parts = true → FMap.wf Tile.reset s.tiles = true →
       ∃ u, exec (.dutyWindow first) s = .next u ∧ u = { s with parts := u.parts, free := u.free, tiles := u.tiles } ∧
       (∀ t, u.tile t = { s.tile t with reads := 0 }) ∧
       ∀ p : PartId, let P := s.part p.val
         let n := (((dutyHolds s first).find? fun a => a.1 == p.val).map (·.2)).getD 0
         let th := thermalClk s p.val
         (P.loaded = false ∨ P.frozen = true ∨ n + th = 0 → u.part p.val = P) ∧
         (P.loaded = true → P.frozen = false → 0 < n + th → ∃ a b, a + b = min 960 (n + th) ∧ a ≤ n ∧ b ≤ th ∧
           (u.part p.val).rootMax = P.rootMax + BitVec.ofNat 32 (a + b) ∧ (u.part p.val).holdClk = P.holdClk + BitVec.ofNat 64 (a + b) ∧
           (u.part p.val).hsGovernor = true ∧ (u.part p.val).counter ctrDuty = (P.count ctrDuty a).counter ctrDuty ∧
           (u.part p.val).counter ctrTherm = (P.count ctrTherm b).counter ctrTherm))) ∧
    (∃ u, exec .capRecompute s = .next u ∧ u = { s with gov := u.gov, heat := u.heat } ∧
      u.gov = { G with cap := u.gov.cap, sumRim := 0, n := 0 } ∧ u.gov.cap ≤ 25000 ∧
      (G.capUser.toNat % 65536 ≠ 0 → u.gov.cap ≤ ((10 * (G.capUser.toNat % 65536) : Nat) : Rat)) ∧
      (∀ k, 144 ≤ k → u.unit k = s.unit k) ∧
      ∀ r, r < 144 → u.unit r = { s.unit r with theta := (u.unit r).theta, n := 0, sumDiff := 0, sumPower := 0 } ∧
        ((s.unit r).sumPower < 60000000 * (s.unit r).n → (u.unit r).theta = (s.unit r).theta)) ∧
    (∀ busB, ∃ u, exec (.busbarLost busB) s = .next u ∧ Events s u (evtAll s pageThm 7) ∧
      u = { s with gov := if busB then { G with busB := true } else { G with busA := true }, headers := u.headers, host := u.host }) ∧
    (∀ busB, exec (.busbarRestored busB) s =
      .next { s with gov := if busB then { G with busB := false } else { G with busA := false } }) ∧
    (∀ v, (G.shutdown = true → exec (.busbarVoltageFault v) s = .next s) ∧
      (G.shutdown = false → ∃ u, exec (.busbarVoltageFault v) s = .next u ∧ u.gov = { G with shutdown := true } ∧
        u.tiles = s.tiles ∧ u.rows = s.rows ∧ u.fltDone = s.fltDone + 1 ∧
        ∀ p, p < 16 →
          ((s.part p).loaded = true → (s.part p).rstate ≠ 3 →
            (u.part p).rstate = 3 ∧ (u.part p).cause = 9 ∧ (u.part p).frozen = true ∧ (u.part p).recovering = false) ∧
          ((s.part p).loaded = true → (s.part p).rstate = 3 → u.part p = { s.part p with cause := 9 }) ∧
          ((s.part p).loaded = false → u.part p = s.part p)))

/-- A trigger starts a scan of the converter's channels, or is an overrun while one runs; each conversion takes its channel in
order; the last one ends the scan. The hourly W of a unit is the largest of its terms (R448–R454).
What it says of choices of the model follows the log: entries 11, 13, 105. -/
def Obligations.ScansAndWear : Prop :=
  ∀ s : State, let X := s.sense
    let started := fun (x : Sense) (u : State) => u = { s with sense := u.sense, cal := u.cal, headers := u.headers, host := u.host } ∧
      u.sense = { x with queue := X.channels, begun := false, first := firstSample s }
    (∀ rising, let x := { X with lastEdge := s.ns }
      (edgeSelected X rising = false → exec (.sampleInEdge rising) s = .next s) ∧
      (edgeSelected X rising = true → X.queue = [] → ∃ u, exec (.sampleInEdge rising) s = .next u ∧ started x u ∧ u.headers = s.headers) ∧
      (edgeSelected X rising = true → X.queue ≠ [] → ∃ u, exec (.sampleInEdge rising) s = .next u ∧
        u = { s with sense := x, headers := u.headers, host := u.host } ∧ Events s u (evtAll s pageSns 1))) ∧
    (X.cfg.extractLsb' 0 2 = 0 → X.queue = [] → ∃ u, exec .scanTimer s = .next u ∧ started { X with lastEdge := s.ns } u ∧
      u.headers = s.headers) ∧
    (X.cfg.extractLsb' 0 2 ≠ 0 → X.lastEdge + 2000000 ≤ s.ns → X.queue = [] → ∃ u, exec .scanTimer s = .next u ∧ started X u ∧
      Events s u (evtAll s pageSns 2)) ∧
    (X.cfg.extractLsb' 0 2 ≠ 0 → s.ns < X.lastEdge + 2000000 → exec .scanTimer s = .next s) ∧
    (∀ (w : WinId) v,
      (w.val ≠ 0 ∨ s.recovery = true ∨ v.getLsbD 0 = false → exec (.force w v) s = .next s) ∧
      (w.val = 0 → s.recovery = false → v.getLsbD 0 = true → s.bru.forceOff = true → ∃ u, exec (.force w v) s = .next u ∧
        u = { s with headers := u.headers, host := u.host } ∧ Events s u (evtAll s pageSns 3)) ∧
      (w.val = 0 → s.recovery = false → v.getLsbD 0 = true → s.bru.forceOff = false → X.queue = [] →
        ∃ u, exec (.force w v) s = .next u ∧ started { X with lastEdge := s.ns } u ∧ u.headers = s.headers)) ∧
    (∀ code, X.queue = [] → exec (.conversionDone code) s = .next s) ∧
    (∀ code c rest, X.queue = c :: rest → ∃ u word, exec (.conversionDone code) s = .next u ∧
      (word.extractLsb' 0 16 = if 18 ≤ c ∧ c ≤ 23 then 0 else
        resultCode (X.cfg.getLsbD 3) c code (calOffset 1 c (FMap.get 0 s.cal.inForce (65536 + c)))) ∧ word.getLsbD 31 = true ∧
      (let x := { X with queue := rest, begun := true, stamp := if X.begun then X.stamp else BitVec.ofNat 64 (X.first / 65536)
                         results := FMap.set 0 X.results c word }
       (rest ≠ [] → u = { s with sense := x }) ∧
       (rest = [] → X.applying = false → Events s u (evtAll s pageSns 0) ∧
         u = { s with sense := { x with scans := X.scans + 1 }, headers := u.headers, host := u.host }))) ∧
    (∀ (n : Fin 145) ts, let k := if n.val = 144 then 168 else n.val
      ∃ u, exec (.wearUpdate [(n, ts)]) s = .next u ∧ u = { s with heat := u.heat, age := u.age, headers := u.headers, host := u.host } ∧
        (∀ q, q ≠ k → u.unit q = s.unit q) ∧ u.age.days ≤ 0xFFFF ∧ u.age.warn = s.age.warn ∧
        (∀ t ∈ wearTerms n.val (s.unit k) ts, t.2 ≤ (u.unit k).wear) ∧
        ((u.unit k).wear = 0 ∨ ((u.unit k).term, (u.unit k).wear) ∈ wearTerms n.val (s.unit k) ts) ∧
        (u.unit k).cyc20 = (s.unit k).cyc20 ∧ (u.unit k).theta = (s.unit k).theta)

/-! ### Reset and bring-up -/

/-- Reset keeps what is non-volatile; a cold bring-up boots an accepted slot, or stops in recovery mode or for its calibration
record; a ring brings into service the regions that pass, with a neighbour in service in the ring before, and no other (R460–R466).
What it says of choices of the model follows the log: entries 8, 39, 48. -/
def Obligations.BringUp : Prop :=
  ∀ s : State, let B := s.bru
    (∃ u, exec .moduleReset s = .next u ∧
      u = { State.reset with
        pending := s.pending, free := s.free, sec := { s.sec with running := false, meas := none }, heat := u.heat
        cal := { flash := s.cal.flash, flashTrim := s.cal.flashTrim }
        bru := { factory := B.factory, field := B.field, clearField := B.clearField } } ∧
      (FMap.wf {} s.heat = true → ∀ k, u.unit k = (s.unit k).kept)) ∧
    (∀ alt sig, (bootSlot s.sec alt = none → ∃ u, exec (.coldBringup alt sig) s = .next u ∧ u.recovery = true ∧ u.bru.phase = 6 ∧
        u.bru.alert = true ∧ u.bru.done = false ∧ u.tiles = [] ∧ u.parts = [] ∧ u.bru.field = B.field) ∧
      (∀ b, bootSlot s.sec alt = some b → sig = false → ∃ u, exec (.coldBringup alt sig) s = .next u ∧ u.recovery = false ∧
        u.bru.phase = 7 ∧ u.bru.alert = true ∧ u.bru.done = false ∧ u.sec = { s.sec with running := b, meas := none } ∧ u.tiles = [] ∧
        u.bru.svc = [.boot 7]) ∧
      (∀ b, bootSlot s.sec alt = some b → sig = true → ∃ u, exec (.coldBringup alt sig) s = .next u ∧ u.recovery = false ∧
        u.bru.phase = 1 ∧ u.bru.next = 0 ∧ u.bru.svc = [.boot 1] ∧ u.sec = { s.sec with running := b, meas := none } ∧ u.tiles = [] ∧ u.parts = [] ∧ u.rows = [] ∧
        u.cal.user = s.cal.flash ∧ u.bru.clearField = false ∧ u.bru.field = (if B.clearField then [] else B.field) ∧
        ∀ n, n < 48 → (u.port n).state = 1)) ∧
    (∀ (ring : Fin 6) fails,
      (B.next ≠ ring.val ∨ (B.phase ≠ 1 ∧ B.phase ≠ 2 ∧ B.phase ≠ 5) → exec (.ringTest ring fails) s = .next s) ∧
      (B.next = ring.val → B.phase = 1 ∨ B.phase = 2 → ∃ u, exec (.ringTest ring fails) s = .next u ∧ u.bru.next = ring.val + 1 ∧
        u.bru.phase = (if ring.val = 5 then 3 else 2) ∧ u.rows = s.rows ∧ u.parts = s.parts ∧
        (∀ r, r ∉ ringRegions ring.val → u.region r = s.region r) ∧
        ∀ r ∈ ringRegions ring.val,
          let near := ring.val = 0 ∨ ((adjacentRegions r).any fun q => ringOf q == ring.val - 1 && (s.region q).inService) = true
          (¬ near → u.region r = s.region r ∧ (B.field.length + 144 + fails.length ≤ 8192 → ∃ e ∈ u.bru.entries, e.kind = 2 ∧ e.a = r)) ∧
          (barred s r coldRetest = true ∨ regionFails r fails = true → u.region r = s.region r) ∧
          (near → barred s r coldRetest = false → r ∉ B.kept → columnsOk (mappedOut s r) = true →
            (∀ f ∈ fails, match f with
              | .tile pc pr _ => physRegion pc.val pr.val ≠ r
              | .region q _ => q.val ≠ r) →
            u.region r = { s.region r with
              inService := true, lostBy := 0, deadA := false, deadB := false, onB := false, mapped := mappedOut s r, refresh := 0 })) ∧
      (B.next = ring.val → B.phase = 5 → fails = [] → ∃ u, exec (.ringTest ring fails) s = .next u ∧
        u = { s with regions := u.regions, bru := { B with ring := ring.val, next := ring.val + 1 } } ∧
        ∀ r, u.region r = if r ∈ ringRegions ring.val ∧ (s.region r).inService = true then { s.region r with refresh := 0 }
          else s.region r)) ∧
    (B.phase ≠ 3 → exec .bringupDone s = .next s) ∧
    (B.phase = 3 → ∃ u, exec .bringupDone s = .next u ∧ Events s u (evtAll s pageBru 0) ∧
      u = { s with sec := u.sec, headers := u.headers, host := u.host
                   bru := { B with
                     phase := 4, done := true, busy := false, forceOff := true, ms := u.bru.ms, svc := B.svc ++ [.boot 4] } } ∧
      u.sec = { s.sec with fuses := u.sec.fuses, meas := some (measure s) } ∧ s.sec.fuses ≤ u.sec.fuses)

/-- WARM is taken from the physical function after a completed bring-up and starts when no quarantine runs: every running partition
is held; with no field map that can be read it ends with status 3. WARM_DONE starts the held partitions again and ends a shutdown. CLEAR_FIELD
stands until the next cold bring-up (R463, R464).
What it says of choices of the model follows the log: entries 40, 68. -/
def Obligations.WarmRestarts : Prop :=
  ∀ (s : State) (w : WinId), let B := s.bru
    (∀ m, w.val ≠ 0 ∨ B.phase = 5 ∨ B.warmWaits = true → exec (.warm ⟨w, m⟩) s = .next s) ∧
    (∀ m, w.val = 0 → B.phase ≠ 5 → B.warmWaits = false → B.done = false →
      exec (.warm ⟨w, m⟩) s = .next { s with bru := { B with status := 2 } }) ∧
    (w.val = 0 → B.phase ≠ 5 → B.warmWaits = false → B.done = true →
      exec (.warm ⟨w, false⟩) s = .next { s with bru := { B with status := 3 } }) ∧
    (w.val = 0 → B.phase ≠ 5 → B.warmWaits = false → B.done = true → (∃ kv ∈ s.parts, kv.2.quarantine = true) →
      exec (.warm ⟨w, true⟩) s = .next { s with bru := { B with warmWaits := true, busy := true } }) ∧
    (w.val = 0 → B.phase ≠ 5 → B.warmWaits = false → B.done = true → (∀ kv ∈ s.parts, kv.2.quarantine = false) →
      ∃ u, exec (.warm ⟨w, true⟩) s = .next u ∧ u.tiles = s.tiles ∧ u.rows = s.rows ∧ u.regions = s.regions ∧
        u.bru = { B with phase := 5, done := false, busy := true, warmWaits := false, ring := 0, next := 0, since := s.ns
                         svc := B.svc ++ [.boot 5] } ∧
        ∀ p, p < 16 → if (s.part p).loaded = true ∧ (s.part p).rstate = 0 then
            u.part p = { s.part p with frozen := true, hsFault := true, rstate := 1 }
          else u.part p = s.part p) ∧
    (∀ fails, B.phase ≠ 5 ∨ B.next ≠ 6 → exec (.warmDone fails) s = .next s) ∧
    (∀ fails, B.phase = 5 → B.next = 6 → ∃ u, exec (.warmDone fails) s = .next u ∧ u.bru.phase = 4 ∧ u.bru.done = true ∧
      u.bru.busy = false ∧ u.bru.status = 0 ∧ u.gov = { s.gov with shutdown := false } ∧
      ∀ p, p < 16 → (s.part p).loaded = true → (s.part p).rstate ≠ 3 ∨ (s.part p).cause = 9 → (s.part p).recovering = false →
        lossVerdict s p = .ok none → (s.part p).owed = [] → (u.part p).rstate = 0 ∧ (u.part p).cause = 0 ∧ (u.part p).frozen = false ∧ (u.part p).running = true ∧
          (u.part p).credits = 1 ∧ (u.part p).firstAfter = true) ∧
    (w.val ≠ 0 ∨ B.busy = true → exec (.clearField w) s = .next s) ∧
    (w.val = 0 → B.busy = false → exec (.clearField w) s = .next { s with bru := { B with clearField := true, status := 0 } })

/-! ### Security and calibration -/

/-- The SEC commands end with their status in their window and CMD_DONE or CMD_FAIL there (R478). ENROL, REVOKE and RELEASE are the
physical function's, outside recovery mode; they check in turn the command's fields, that the module is owned, the owner's signature and
that the counter rises (R468, Table 14.5). The first owner key is taken unsigned with index and counter zero; a further key takes a free
entry from 1 to 31; a revoked identifier stays revoked until RELEASE, which puts every loaded partition into quarantine and clears the
table and the counter (R467, R468). A report with its magic and its partitions' count, and the certificates, are posted to host memory
(R469). A firmware image that verifies and is not older than the fuses goes into the slot that does not run, or in recovery mode into
the one that the selector does not name, and is selected; another ends with status 6 (R466).
What it says of choices of the model follows the log: entries 4, 41, 42, 68. -/
def Obligations.SecurityCommands : Prop :=
  ∀ (s : State) (w : WinId), let K := s.sec
    let ended := fun (u : State) (st : Byte) =>
      (∀ v, u.secOf v = if v = w.val then { s.secOf v with busy := false, status := st } else s.secOf v) ∧
      Events s u (evt w.val pageSec (if st = 0 then 0 else 1))
    let only := fun (u : State) (sec : Security) (st : Byte) => ended u st ∧
      u = { s with sec := sec, secWin := u.secWin, headers := u.headers, host := u.host } ∧ u.host.posted = s.host.posted
    (∀ (op : Byte) (c : EnrolCmd),
      (enrolFieldsOk op c = false → enrolStatus s op c = 1) ∧
      (enrolFieldsOk op c = true → K.owned = false → enrolStatus s op c = 5) ∧
      (enrolFieldsOk op c = true → K.owned = true → c.ownerSigOk = false → enrolStatus s op c = 2) ∧
      (enrolFieldsOk op c = true → K.owned = true → c.ownerSigOk = true →
        enrolStatus s op c = if (enrolCounter c).toNat ≤ K.counter.toNat then 3 else 0)) ∧
    (w.val ≠ 0 → s.recovery = true → (∀ c, ∀ i ∈ [Instr.enrol w c, .revoke w c, .release w c, .attest w, .certRead w],
      exec i s = .next s) ∧ ∀ fw, exec (.fwWrite w fw) s = .next s) ∧
    (∀ c : EnrolCmd, (w.val ≠ 0 ∧ s.recovery = false) ∨ (w.val = 0 ∧ s.recovery = true) →
      ∀ i ∈ [Instr.enrol w c, .revoke w c, .release w c], ∃ u, exec i s = .next u ∧ only u K 5) ∧
    (∀ c : EnrolCmd, w.val = 0 → s.recovery = false → let i := enrolIndex c
      let first := enrolFieldsOk 1 c = true ∧ enrolCounter c = 0 ∧ zeroAt c.bytes 160 96 = true
      (K.owned = false → i = 0 → first → ∃ u, exec (.enrol w c) s = .next u ∧
        only u { K with keys := FMap.set none K.keys 0 (some { id := enrolNewKey c, usage := enrolUsage c }) } 0) ∧
      (K.owned = false → i = 0 → ¬ first → ∃ u, exec (.enrol w c) s = .next u ∧ only u K 1) ∧
      (K.owned = true ∨ i ≠ 0 → enrolStatus s 1 c ≠ 0 → ∃ u, exec (.enrol w c) s = .next u ∧ only u K (enrolStatus s 1 c)) ∧
      (enrolStatus s 1 c = 0 → i = 0 ∨ 32 ≤ i → ∃ u, exec (.enrol w c) s = .next u ∧ only u K 1) ∧
      (enrolStatus s 1 c = 0 → 0 < i → i < 32 → FMap.get none K.keys i = none → enrolNewKey c ∉ K.revoked →
        ∃ u, exec (.enrol w c) s = .next u ∧
          only u { K with keys := FMap.set none K.keys i (some { id := enrolNewKey c, usage := enrolUsage c })
                          counter := enrolCounter c } 0) ∧
      (enrolStatus s 1 c = 0 → 0 < i → i < 32 → FMap.get none K.keys i ≠ none ∨ enrolNewKey c ∈ K.revoked →
        ∃ u, exec (.enrol w c) s = .next u ∧ only u K 4) ∧
      (enrolStatus s 2 c ≠ 0 → ∃ u, exec (.revoke w c) s = .next u ∧ only u K (enrolStatus s 2 c)) ∧
      (enrolStatus s 2 c = 0 → ∃ u, exec (.revoke w c) s = .next u ∧
        only u { K with revoked := if enrolKeyId c ∈ K.revoked then K.revoked else K.revoked ++ [enrolKeyId c]
                        counter := enrolCounter c } 0) ∧
      (enrolStatus s 3 c ≠ 0 → ∃ u, exec (.release w c) s = .next u ∧ only u K (enrolStatus s 3 c)) ∧
      (enrolStatus s 3 c = 0 → ∃ u, exec (.release w c) s = .next u ∧ u.sec = { K with keys := [], revoked := [], counter := 0 } ∧
        (u.secOf w.val).status = 0 ∧ (u.secOf w.val).busy = false ∧ ∀ p, p < 16 → (s.part p).image.isSome = true →
          (u.part p).quarantine = true ∧
          ((s.part p).quarantine = false → (u.part p).frozen = true) ∧
          ∀ v I, (s.rn v).image = some I → I.quarantined = true → (u.rn v).image = none ∧ (u.rn v).status = 0x0A)) ∧
    (∀ m, s.recovery = false → K.meas = some m → ∃ u body, exec (.attest w) s = .next u ∧ ended u 0 ∧
      u = { s with secWin := u.secWin, headers := u.headers, host := u.host } ∧
      u.host.posted = s.host.posted ++ [((s.secOf w.val).addr.toNat, body ++ signatureBlock body)] ∧
      body.take 4 = bytesLE 4 0x4C574154 ∧ (body.drop 6).take 1 = [BitVec.ofNat 8 (attested s w.val).length] ∧
      (body.drop 56).take 48 = bytesLE 48 m.firmware.toNat ∧ (body.drop 108).take 96 = bytesLE 48 m.enrolment.toNat ++ bytesLE 48 m.maps.toNat) ∧
    (s.recovery = false ∧ K.meas = none ∨ w.val = 0 ∧ s.recovery = true → ∃ u, exec (.attest w) s = .next u ∧ only u K 5) ∧
    (s.recovery = false → ∃ u, exec (.certRead w) s = .next u ∧ ended u 0 ∧
      u = { s with secWin := u.secWin, headers := u.headers, host := u.host } ∧
      u.host.posted = s.host.posted ++ [((s.secOf w.val).addr.toNat, Config.certificates)]) ∧
    (w.val = 0 → s.recovery = true → ∃ u, exec (.certRead w) s = .next u ∧ only u K 5) ∧
    (∀ fw : FwImage, let b := if s.recovery then !K.select else !K.running
      (w.val ≠ 0 → s.recovery = false → ∃ u, exec (.fwWrite w fw) s = .next u ∧ only u K 5) ∧
      (w.val = 0 → fw.verifies = true → K.fuses ≤ fw.secver.toNat → ∃ u, exec (.fwWrite w fw) s = .next u ∧
        only u (if b then { K with slotB := some fw, select := true } else { K with slotA := some fw, select := false }) 0) ∧
      (w.val = 0 → fw.verifies = false ∨ fw.secver.toNat < K.fuses → ∃ u, exec (.fwWrite w fw) s = .next u ∧ only u K 6))

/-- The CAL commands: an offset is taken within its item's range, and what it gives saturates at the item's limits; SAVE copies offsets and
trims to flash, or ends with status 2 where flash does not take them; RESTORE puts the offsets at the factory's, and the trims of regions that
no loaded partition holds, and leaves flash (R456, R473–R475, R498, R499).
What it says of choices of the model follows the log: entries 63, 68. -/
def Obligations.Calibration : Prop :=
  ∀ (s : State) (w : WinId), let C := s.cal
    (pageShown s w.val pageCal = false → (∀ v, exec (.calUserWrite w v) s = .next s) ∧ (∀ f, exec (.save ⟨w, f⟩) s = .next s) ∧
      exec (.restore w) s = .next s) ∧
    (∀ kind i v, calEffective kind i 0 = Config.factoryCal kind i ∧ (v ≠ 0 → Config.calLow kind ≤ calEffective kind i v ∧
      (calEffective kind i v ≤ Config.calHigh kind ∨ calEffective kind i v = Config.calLow kind))) ∧
    (pageShown s w.val pageCal = true →
      (∀ v lim, calRange (calKind s) (calIndex s) = some lim → let k := 65536 * calKind s + calIndex s
        let x := clampInt (-lim) lim v.toInt
        exec (.calUserWrite w v) s = .next { s with cal := { C with
          user := FMap.set 0 C.user k x, unsaved := C.unsaved || FMap.get 0 C.user k != x } }) ∧
      (∀ v, calRange (calKind s) (calIndex s) = none → exec (.calUserWrite w v) s = .next (rejectWrite s w.val pageCal 0x44 2)) ∧
      exec (.save ⟨w, false⟩) s = .next { s with cal := { C with status := 2 } } ∧
      (∃ u, exec (.save ⟨w, true⟩) s = .next u ∧ u = { s with cal := { C with
          flash := C.user, flashTrim := u.cal.flashTrim, unsaved := false, status := 0 } } ∧
        (FMap.wf {} s.heat = true → ∀ k, FMap.get 0 u.cal.flashTrim k = ((s.unit k).trim.map BitVec.toInt).getD 0)) ∧
      (∃ u, exec (.restore w) s = .next u ∧
        u = { s with heat := u.heat, cal := { C with user := [], unsaved := true, status := 0 }, headers := u.headers, host := u.host } ∧
        (∀ k, 144 ≤ k → u.unit k = s.unit k) ∧
        ∀ r, r < 144 → let differs := (s.unit r).trim.getD (Config.factoryTrim r) ≠ Config.factoryTrim r
          (u.unit r).trim.getD (Config.factoryTrim r) =
            (if regionQuiesced s r then Config.factoryTrim r else (s.unit r).trim.getD (Config.factoryTrim r)) ∧
          u.unit r = { s.unit r with trim := (u.unit r).trim } ∧
          (differs → regionQuiesced s r = false → (u.header w.val (pageRgn + r)).cfgReject = true)))

/-! ### TWN and the register page -/

/-- READ shows a tile's bytes, each space from its own store, to a window that may see them; it changes nothing but its own page.
A word found uncorrectable reads zero, with status 5.
WRITE_CTRL clears the tile's counters and sets refresh_defer_max while the partition is quiesced (R62, R63, R500, R501).
What it says of choices of the model follows the log: entries 45, 68. -/
def Obligations.TilesAreReadAndControlled : Prop :=
  ∀ (s : State) (w : WinId) (t : TileAddr), let x := s.twnOf w.val
    let T := s.tile t
    let space := (x.sel.extractLsb' 28 3).toNat
    let n := x.len.toNat
    let a := x.addr.toNat
    let ended := fun (y : TwnWin) (u : State) => (∀ v, u.twnOf v = if v = w.val then y else s.twnOf v) ∧ u = { s with twn := u.twn }
    (pageShown s w.val pageTwn = false → (∀ bad, exec (.read ⟨w, bad⟩) s = .next s) ∧ exec (.writeCtrl w) s = .next s) ∧
    (pageShown s w.val pageTwn = true →
      (∀ bad, twnArgs space a n = false → ∃ u, exec (.read ⟨w, bad⟩) s = .next u ∧ ended { x with busy := false, status := 1 } u) ∧
      (∀ bad, twnArgs space a n = true → w.val ≠ 0 → space ≠ 0 → ∃ u, exec (.read ⟨w, bad⟩) s = .next u ∧
        ended { x with busy := false, status := 2 } u) ∧
      (∀ bad, twnArgs space a n = true → w.val = 0 ∨ space = 0 → twnReach s x.sel = none → ∃ u, exec (.read ⟨w, bad⟩) s = .next u ∧
        ended { x with busy := false, status := 3 } u) ∧
      (twnReach s x.sel = none → ∃ u, exec (.writeCtrl w) s = .next u ∧ ended { x with busy := false, status := 3 } u) ∧
      (x.sel.getLsbD 31 = false → (x.sel.extractLsb' 9 9).toNat = t.col.val → (x.sel.extractLsb' 0 9).toNat = t.row.val →
          (s.region (regionOf t)).inService = true → T.inService = true →
        (twnArgs space a n = true → w.val = 0 → (∀ p, T.part = some p → (s.part p.val).quarantine = false) →
          tileQuiesced s T = true ∨ space ≠ 3 →
          ∀ bad : List (Fin 64), let coded := space = 1 ∨ space = 2 ∨ space = 4
          let store := if space = 1 then T.column else if space = 2 then T.pad else T.side
          ∃ u bs, exec (.read ⟨w, bad⟩) s = .next u ∧
            ended { x with busy := false, status := if coded ∧ ∃ k ∈ bad, 4 * k.val < n then 5 else 0, data := bs } u ∧ bs.length = n ∧
            (coded → ∀ i, i < n → bs[i]? = some (if ∃ k ∈ bad, k.val = i / 4 then 0 else store.get (a + i))) ∧
            (space = 3 → a = 0 → bs.take 8 = bytesLE 4 (T.sreg 0).toNat ++ bytesLE 4 (T.sreg 1).toNat) ∧
            (space = 0 → a = 0 → 32 ≤ n → (bs.drop 24).take 4 = bytesLE 4 (T.counter ctrRetry).toNat)) ∧
        (twnArgs space a n = true → w.val = 0 → (∃ p, T.part = some p ∧ (s.part p.val).quarantine = true) →
          tileQuiesced s T = true ∨ space ≠ 3 →
          ∀ bad, ∃ u, exec (.read ⟨w, bad⟩) s = .next u ∧ ended { x with busy := false, status := 0, data := List.replicate n 0 } u) ∧
        (w.val = 0 → let d := min 4 (x.dataIn.extractLsb' 4 4).toNat
          let T1 := if x.dataIn.getLsbD 31 then { T with ctr := [], firstSlip := 0 } else T
          (tileQuiesced s T = true ∨ d = T.deferMax → ∃ u, exec (.writeCtrl w) s = .next u ∧
            u = { s with tiles := u.tiles, twn := u.twn } ∧ u.twnOf w.val = { x with busy := false, status := 0 } ∧
            ∀ v, u.tile v = if v = t then { T1 with deferMax := d } else s.tile v) ∧
          (tileQuiesced s T = false → d ≠ T.deferMax → ∃ u, exec (.writeCtrl w) s = .next u ∧
            u = { s with tiles := u.tiles, twn := u.twn, headers := u.headers, host := u.host } ∧
            (u.header w.val pageTwn).cfgReject = true ∧ u.twnOf w.val = { x with busy := false, status := 4 } ∧
            ∀ v, u.tile v = if v = t then T1 else s.tile v))))

/-- Header commands: EVT_STAT by W1C and by force with the message rule, the error record, counters from the physical function
alone, CFG_APPLY only with a shadow pending, shadows held; the writes shown here (CAP_USER, EVT_EN of the
SIG page, KVP_DEST) take effect by their class, and none at a page the window does not see; an access that is not aligned reads zero and its
write is recorded with cause 2; captures hold the high word and the record for their window, each word until its next read; a 64-bit read
gives both words as they stand and ends what was captured of its register (R10, R480–R490, R497).
What it says of choices of the model follows the log: entries 65, 66, 67, 107. -/
def Obligations.RegistersTakeCommands : Prop :=
  ∀ (s : State) (w : WinId),
    (∀ page : BitVec 16, let g := page.toNat
      let H := s.header w.val g
      let hdr := fun (h : Header) (u : State) => u = { s with headers := u.headers, host := u.host } ∧
        ∀ v q, q < 65536 → u.header v q = if v = w.val ∧ q = g then h else s.header v q
      let told := fun (h : Header) (u : State) (c : Bool) =>
        u.host = if h.routeEn && h.pendingSet && c then s.host.msi w.val h.vector.toNat else s.host
      (pageShown s w.val g = false → ∀ v, ∀ c ∈ [Instr.evtStatClear w page v, .evtForce w page v, .errClear w page, .ctrClear w page,
        .cfgApply w page], exec c s = .next s) ∧
      (pageShown s w.val g = true →
        (∀ v, ∃ u, exec (.evtStatClear w page v) s = .next u ∧ hdr { H with evtStat := H.evtStat &&& ~~~v } u ∧
          told { H with evtStat := H.evtStat &&& ~~~v } u true) ∧
        (∀ v, let h := { H with evtStat := H.evtStat ||| definedEvents g v }
          ∃ u, exec (.evtForce w page v) s = .next u ∧ hdr h u ∧ told h u (!H.pendingSet)) ∧
        (∃ u, exec (.errClear w page) s = .next u ∧ u.host = s.host ∧
          hdr { H with errValid := false, errCause := 0, errOffset := 0, errCount := 0 } u) ∧
        (w.val ≠ 0 → exec (.ctrClear w page) s = .next s) ∧
        (pagePend s w.val g = false → exec (.cfgApply w page) s = .next s))) ∧
    (∀ p : PartId, let page := BitVec.ofNat 16 (pagePrt + p.val)
      let P := s.part p.val
      (w.val = 0 → s.recovery = false → ∃ u, exec (.ctrClear w page) s = .next u ∧ OnlyPart p.val s u ∧
        u.part p.val = { P with ctr := [] }) ∧
      (pageShown s w.val (pagePrt + p.val) = true → P.specShadow.isSome = true → ∃ u, exec (.cfgApply w page) s = .next u ∧
        OnlyPart p.val s u ∧ u.part p.val = if P.rstate = 0 ∧ P.frozen = false then { P with asked := true } else P) ∧
      (w.val = 0 → s.recovery = false → ∀ v, ∃ u, exec (.rwsShadowWrite w (BitVec.ofNat 28 ((pagePrt + p.val) * 4096 + 0x74)) v) s = .next u ∧
        OnlyPart p.val s u ∧ u.part p.val = { P with specShadow := some (v &&& 0xFFF0FFFF) })) ∧
    (w.val = 0 → s.recovery = false → ∀ v, exec (.rwsShadowWrite w 0x5040 v) s =
      .next { s with sense := { s.sense with shCfg := some (v &&& 0xF) } }) ∧
    (∀ off v be wide, pageShown s w.val (off.toNat / 4096) = false → exec (.registerWrite w off wide v be) s = .next s) ∧
    (w.val = 0 → s.recovery = false → ∀ v be, be.extractLsb' 0 4 = 0xF →
      exec (.registerWrite w 0x4044 false v be) s = .next { s with gov := { s.gov with capUser := v.extractLsb' 0 32 &&& 0xFFFF } }) ∧
    (s.recovery = false → ∀ v be, be.extractLsb' 0 4 = 0xF → ∃ u, exec (.registerWrite w 0xB014 false v be) s = .next u ∧
      u = { s with headers := u.headers, host := u.host } ∧ readReg u w.val 0xB014 = v.extractLsb' 0 32) ∧
    (s.recovery = false → ∀ v, exec (.registerWrite w 0xA058 true v 0xFF) s =
      .next (s.setKv w.val { s.kv w.val with dest := v &&& 0xFFFF000F00000001 })) ∧
    (s.recovery = false → ∃ u, exec (.lowWordReadCapture w ⟨0x3040, false⟩) s = .next u ∧ u = { s with capHigh := u.capHigh } ∧
      readReg u w.val 0x3044 = (readBody s w.val pageHal 0x44).getD 0 ∧ readReg u w.val 0x3048 = (readBody s w.val pageHal 0x48).getD 0) ∧
    (s.recovery = false → ∀ off ∈ [0x3044, 0x3048], ∃ u, exec (.lowWordReadCapture w ⟨BitVec.ofNat 28 off, false⟩) s = .next u ∧
      u = { s with capHigh := u.capHigh } ∧ readReg u w.val off = (readBody s w.val pageHal (off - 0x3000)).getD 0) ∧
    (∀ off wide, pageShown s w.val (off.toNat / 4096) = false ∨ off.toNat % (if wide then 8 else 4) ≠ 0 →
      exec (.lowWordReadCapture w ⟨off, wide⟩) s = .next s ∧ readAccess s w.val ⟨off, wide⟩ = 0) ∧
    (∀ off wide v be, let page := off.toNat / 4096
      pageShown s w.val page = true → off.toNat % (if wide then 8 else 4) ≠ 0 →
      exec (.registerWrite w off wide v be) s = .next (rejectWrite s w.val page (recordedOffset page (off.toNat % 4096)) 2)) ∧
    (∀ off : BitVec 28, let page := off.toNat / 4096
      let o := off.toNat % 4096
      pageShown s w.val page = true → off.toNat % 8 = 0 → wideReg (familyOf page).1 o = true →
      readAccess s w.val ⟨off, true⟩ = (readBody s w.val page (o + 4)).getD 0 ++ (readBody s w.val page o).getD 0 ∧
      ∃ u, exec (.lowWordReadCapture w ⟨off, true⟩) s = .next u ∧ u = { s with capHigh := u.capHigh } ∧
        readReg u w.val (off.toNat + 4) = (readBody s w.val page (o + 4)).getD 0) ∧
    (∀ k, k < 16 → let o := 0x200 + 32 * k
      (w.val ≠ 0 ∨ s.recovery = true → ∀ wide, exec (.fltRecordRead w ⟨BitVec.ofNat 28 (0x7000 + o), wide⟩) s = .next s) ∧
      (w.val = 0 → s.recovery = false → exec (.fltRecordRead w ⟨BitVec.ofNat 28 (0x7000 + o), false⟩) s =
        .next { s with capFlt := FMap.set [] s.capFlt o ((fltSlot s o).map some) }) ∧
      (w.val = 0 → s.recovery = false → ∃ u, exec (.fltRecordRead w ⟨BitVec.ofNat 28 (0x7000 + o), true⟩) s = .next u ∧
        u = { s with capFlt := u.capFlt } ∧ FMap.get [] u.capFlt o = ((fltSlot s o).map some).set 1 none) ∧
      (w.val = 0 → s.recovery = false → ∀ i, 1 ≤ i → i < 8 →
        ∃ u, exec (.fltRecordRead w ⟨BitVec.ofNat 28 (0x7000 + o + 4 * i), false⟩) s = .next u ∧ u = { s with capFlt := u.capFlt } ∧
          (∀ k, k ≠ o → FMap.get [] u.capFlt k = FMap.get [] s.capFlt k) ∧
          (∀ j, j ≠ i → (FMap.get [] u.capFlt o)[j]? = (FMap.get [] s.capFlt o)[j]?) ∧
          readReg u 0 (0x7000 + o + 4 * i) = (fltSlot s o).getD i 0))

/-! ### The whole module -/

/-- The module after reset: no command waits, no tile, partition, row or record is listed, every link port has its enable bit and
is DISABLED (Table 11.13), time stands at zero, and every memory is in canonical form.
What it says of choices of the model follows the log: entries 6, 8. -/
def Obligations.AfterReset : Prop :=
  MemWf State.reset ∧ State.reset.pending = [] ∧ (∀ t, State.reset.tile t = Tile.reset) ∧ (∀ p, (State.reset.part p).loaded = false) ∧
  (∀ r, (State.reset.region r).inService = false) ∧ (∀ r, (State.reset.row r).state = 0) ∧
  (∀ n, (State.reset.port n).enable = true ∧ (State.reset.port n).state = 0) ∧ State.reset.hall.now = 0 ∧ State.reset.bru.done = false

/-- Commands leave the queue of waiting commands alone. -/
def Obligations.CommandsKeepTheQueue : Prop :=
  ∀ (c : Instr) (s u : State), exec c s = .next u → u.pending = s.pending

/-- Every step of the module, by whatever command or tick, keeps every tile's memories and the table of tiles in canonical form.
What it says of choices of the model follows the log: entry 6. -/
def Obligations.MemoriesStayCanonical : Prop :=
  ∀ s u : State, MemWf s → step s = .next u → MemWf u

/-- The word of every well-formed tile instruction decodes to that instruction: no operand bit of an encoding is dropped. -/
def Obligations.TileWordsDecode : Prop :=
  ∀ (i : Instr) (t : TileAddr) (w : DWord), i.tileWord = some (t, w) → decodeWord t w = some i
end

