-- ==== Sys2Proof/Laws/FMap.lean ====
section
/-! SUPPORT. What the sparse tables and byte memories do: read after write, and the canonical form kept. -/
namespace Sys2Proof.Machine

variable {α : Type}

theorem FMap.get_put (d : α) (m : FMap α) (k j : Nat) (v : α) :
    FMap.get d (m.put k v) j = if j = k then v else FMap.get d m j := by
  induction m with
  | nil => simp only [FMap.put, FMap.get, eq_comm]
  | cons p m ih => grind [FMap.put, FMap.get]

theorem FMap.get_erase (d : α) (m : FMap α) (k j : Nat) :
    FMap.get d (m.erase k) j = if j = k then d else FMap.get d m j := by
  induction m with
  | nil => simp [FMap.erase, FMap.get]
  | cons p m ih => grind [FMap.erase, FMap.get]

/-- Read after write, at every index. -/
@[simp] theorem FMap.get_set [DecidableEq α] (d : α) (m : FMap α) (k j : Nat) (v : α) :
    FMap.get d (m.set d k v) j = if j = k then v else FMap.get d m j := by
  unfold FMap.set
  split
  · next h => rw [FMap.get_erase, h]
  · exact FMap.get_put d m k j v

@[simp] theorem FMap.get_nil (d : α) (k : Nat) : FMap.get d [] k = d := rfl

theorem FMap.above_iff {n : Nat} {m : FMap α} : FMap.above n m = true ↔ ∀ p ∈ m, n < p.1 := by
  simp [FMap.above]

theorem FMap.above_mono {n k : Nat} {m : FMap α} (h : FMap.above k m = true) (hk : n ≤ k) : FMap.above n m = true := by
  rw [FMap.above_iff] at *
  exact fun p hp => Nat.lt_of_le_of_lt hk (h p hp)

theorem FMap.above_put {n k : Nat} {m : FMap α} {v : α} (h : FMap.above n m = true) (hk : n < k) :
    FMap.above n (m.put k v) = true := by
  induction m with
  | nil => simp [FMap.put, FMap.above, hk]
  | cons p m ih => grind [FMap.put, FMap.above]

theorem FMap.above_erase {n k : Nat} {m : FMap α} (h : FMap.above n m = true) : FMap.above n (m.erase k) = true := by
  induction m with
  | nil => simp [FMap.erase, FMap.above]
  | cons p m ih => grind [FMap.erase, FMap.above]

theorem FMap.wf_put [DecidableEq α] {d v : α} {m : FMap α} {k : Nat} (h : m.wf d = true) (hv : v ≠ d) :
    (m.put k v).wf d = true := by
  induction m with
  | nil => simp [FMap.put, FMap.wf, FMap.above, hv]
  | cons p m ih =>
    obtain ⟨j, w⟩ := p
    simp only [FMap.wf, Bool.and_eq_true, decide_eq_true_eq] at h
    obtain ⟨⟨h1, h2⟩, h3⟩ := h
    simp only [FMap.put]
    split
    · next hk =>
      simp only [FMap.wf, Bool.and_eq_true, decide_eq_true_eq, hv, h1, h3, h2, ne_eq, not_false_eq_true, and_true, true_and]
      rw [FMap.above_iff]
      intro p hp
      rcases List.mem_cons.mp hp with e | e
      · rw [e]; exact hk
      · exact Nat.lt_trans hk (FMap.above_iff.mp h2 p e)
    · split
      · next hj => simp_all [FMap.wf]
      · next hk hj =>
        simp only [FMap.wf, Bool.and_eq_true, decide_eq_true_eq]
        exact ⟨⟨h1, FMap.above_put h2 (by omega)⟩, ih h3⟩

theorem FMap.wf_erase [DecidableEq α] {d : α} {m : FMap α} {k : Nat} (h : m.wf d = true) : (m.erase k).wf d = true := by
  induction m with
  | nil => rfl
  | cons p m ih =>
    obtain ⟨j, w⟩ := p
    simp only [FMap.wf, Bool.and_eq_true, decide_eq_true_eq] at h
    simp only [FMap.erase]
    split
    · exact ih h.2
    · simp only [FMap.wf, Bool.and_eq_true, decide_eq_true_eq]
      exact ⟨⟨h.1.1, FMap.above_erase h.1.2⟩, ih h.2⟩

/-- A write keeps the canonical form. -/
theorem FMap.wf_set [DecidableEq α] {d : α} {m : FMap α} (h : m.wf d = true) (k : Nat) (v : α) : (m.set d k v).wf d = true := by
  unfold FMap.set
  split
  · exact FMap.wf_erase h
  · next hv => exact FMap.wf_put h hv

/-- A table whose cells pass a filter keeps the canonical form. -/
theorem FMap.wf_filter [DecidableEq α] {d : α} {m : FMap α} (c : Nat × α → Bool) (h : m.wf d = true) :
    FMap.wf d (m.filter c) = true := by
  induction m with
  | nil => rfl
  | cons p m ih =>
    obtain ⟨j, w⟩ := p
    simp only [FMap.wf, Bool.and_eq_true, decide_eq_true_eq] at h
    simp only [List.filter_cons]
    split
    · simp only [FMap.wf, Bool.and_eq_true, decide_eq_true_eq]
      refine ⟨⟨h.1.1, ?_⟩, ih h.2⟩
      rw [FMap.above_iff]
      exact fun p hp => FMap.above_iff.mp h.1.2 p (List.mem_filter.mp hp).1
    · exact ih h.2

/-- Two tables in canonical form, the first below the second, make one. -/
theorem FMap.wf_append [DecidableEq α] {d : α} {m n : FMap α} (hm : m.wf d = true) (hn : n.wf d = true)
    (h : ∀ p ∈ m, ∀ q ∈ n, p.1 < q.1) : FMap.wf d (m ++ n) = true := by
  induction m with
  | nil => exact hn
  | cons p m ih =>
    obtain ⟨j, w⟩ := p
    simp only [FMap.wf, Bool.and_eq_true, decide_eq_true_eq] at hm
    simp only [List.cons_append, FMap.wf, Bool.and_eq_true, decide_eq_true_eq]
    refine ⟨⟨hm.1.1, ?_⟩, ih hm.2 fun p hp q hq => h p (List.mem_cons_of_mem _ hp) q hq⟩
    rw [FMap.above_iff]
    intro q hq
    rcases List.mem_append.mp hq with e | e
    · exact FMap.above_iff.mp hm.1.2 q e
    · exact h _ (List.mem_cons_self ..) q e

/-! ### Byte memories -/

theorem FMap.get_append_right (d : α) (m n : FMap α) (k : Nat) (h : ∀ p ∈ m, p.1 ≠ k) :
    FMap.get d (m ++ n) k = FMap.get d n k := by
  induction m with
  | nil => rfl
  | cons p m ih => grind [FMap.get]

theorem FMap.get_append_left (d : α) (m n : FMap α) (k : Nat) (h : ∀ p ∈ n, p.1 ≠ k) :
    FMap.get d (m ++ n) k = FMap.get d m k := by
  induction m with
  | nil =>
    induction n with
    | nil => rfl
    | cons q n ih => grind [FMap.get]
  | cons p m ih => grind [FMap.get]

theorem FMap.get_filter_of (d : α) (m : FMap α) (c : Nat → Bool) (k : Nat) :
    FMap.get d (m.filter fun p => c p.1) k = if c k then FMap.get d m k else d := by
  induction m with
  | nil => simp
  | cons p m ih => grind [FMap.get]

theorem Mem.cells_key {a : Nat} {bs : List Byte} {p : Host.Cell} (h : p ∈ Mem.cells a bs) : a ≤ p.1 ∧ p.1 < a + bs.length := by
  induction bs generalizing a with
  | nil => simp [Mem.cells] at h
  | cons b bs ih =>
    simp only [Mem.cells] at h
    split at h
    · have := ih h; simp only [List.length_cons]; omega
    · rcases List.mem_cons.mp h with e | e
      · rw [e]; simp only [List.length_cons]; omega
      · have := ih e; simp only [List.length_cons]; omega

theorem Mem.get_cells (a k : Nat) (bs : List Byte) :
    FMap.get Mem.blank (Mem.cells a bs) k = if a ≤ k ∧ k < a + bs.length then bs.getD (k - a) 0 else 0 := by
  induction bs generalizing a with
  | nil => simp [Mem.cells, Mem.blank]
  | cons b bs ih =>
    simp only [Mem.cells]
    have hb : Mem.blank = (0 : Byte) := rfl
    have key : ∀ h : a < k, (b :: bs).getD (k - a) 0 = bs.getD (k - (a + 1)) 0 := by
      intro h
      have : k - a = (k - (a + 1)) + 1 := by omega
      rw [this]; rfl
    split
    · next h =>
      rw [ih]
      by_cases e : k = a
      · subst e; simp [h, hb] <;> omega
      · by_cases h1 : a + 1 ≤ k ∧ k < a + 1 + bs.length
        · rw [if_pos h1, if_pos (by simp only [List.length_cons]; omega), key (by omega)]
        · rw [if_neg h1, if_neg (by simp only [List.length_cons]; omega)]
    · next h =>
      simp only [FMap.get]
      split
      · next e => subst e; simp
      · next e =>
        rw [ih]
        by_cases h1 : a + 1 ≤ k ∧ k < a + 1 + bs.length
        · rw [if_pos h1, if_pos (by simp only [List.length_cons]; omega), key (by omega)]
        · rw [if_neg h1, if_neg (by simp only [List.length_cons]; omega)]

/-- A byte read after bytes were stored: the stored byte inside them, what was there outside. -/
@[simp] theorem Mem.get_write (m : Mem) (a k : Nat) (bs : List Byte) :
    (m.write a bs).get k = if a ≤ k ∧ k < a + bs.length then bs.getD (k - a) 0 else m.get k := by
  have hlt := FMap.get_filter_of Mem.blank m (fun n => decide (n < a)) k
  have hge := FMap.get_filter_of Mem.blank m (fun n => decide (a + bs.length ≤ n)) k
  have hc := Mem.get_cells a k bs
  have n1 : ¬ (a ≤ k ∧ k < a + bs.length) → ∀ p ∈ Mem.cells a bs, p.1 ≠ k := by
    intro h p hp e; have := Mem.cells_key hp; omega
  have n2 : ¬ (a + bs.length ≤ k) → ∀ p ∈ m.filter (fun c => decide (a + bs.length ≤ c.1)), p.1 ≠ k := by
    intro h p hp e; have := (List.mem_filter.mp hp).2; simp at this; omega
  have n0 : ¬ (k < a) → ∀ p ∈ m.filter (fun c => decide (c.1 < a)), p.1 ≠ k := by
    intro h p hp e; have := (List.mem_filter.mp hp).2; simp at this; omega
  unfold Mem.write Mem.get
  by_cases h1 : k < a
  · rw [FMap.get_append_left _ _ _ _ (n2 (by omega)), FMap.get_append_left _ _ _ _ (n1 (by omega)), hlt,
      if_pos (by simpa using h1), if_neg (by omega)]
  · rw [List.append_assoc, FMap.get_append_right _ _ _ _ (n0 h1)]
    by_cases h2 : k < a + bs.length
    · rw [FMap.get_append_left _ _ _ _ (n2 (by omega)), hc]
      simp only [show a ≤ k ∧ k < a + bs.length from ⟨by omega, h2⟩, and_self, if_true]
    · rw [FMap.get_append_right _ _ _ _ (n1 (by omega)), hge, if_pos (by simp; omega), if_neg (by omega)]

theorem Mem.cells_wf (a : Nat) (bs : List Byte) : FMap.wf Mem.blank (Mem.cells a bs) = true := by
  induction bs generalizing a with
  | nil => rfl
  | cons b bs ih =>
    simp only [Mem.cells]
    split
    · exact ih _
    · next h =>
      simp only [FMap.wf, Bool.and_eq_true, decide_eq_true_eq]
      refine ⟨⟨h, ?_⟩, ih _⟩
      rw [FMap.above_iff]
      intro p hp
      have := Mem.cells_key hp
      omega

/-- A store keeps the canonical form. -/
theorem Mem.wf_write {m : Mem} (h : m.wf = true) (a : Nat) (bs : List Byte) : (m.write a bs).wf = true := by
  unfold Mem.wf Mem.write at *
  refine FMap.wf_append (FMap.wf_append (FMap.wf_filter _ h) (Mem.cells_wf a bs) ?_) (FMap.wf_filter _ h) ?_
  · intro p hp q hq
    have := (List.mem_filter.mp hp).2
    have := Mem.cells_key hq
    simp_all; omega
  · intro p hp q hq
    have h2 := (List.mem_filter.mp hq).2
    simp only [decide_eq_true_eq] at h2
    rcases List.mem_append.mp hp with e | e
    · have := (List.mem_filter.mp e).2; simp only [decide_eq_true_eq] at this; omega
    · have := Mem.cells_key e; omega

/-- A clear keeps the canonical form. -/
theorem Mem.wf_clear {m : Mem} (h : m.wf = true) (a n : Nat) : (m.clear a n).wf = true := FMap.wf_filter _ h

/-- A byte read after a clear: zero inside the cleared bytes, what was there outside. -/
@[simp] theorem Mem.get_clear (m : Mem) (a n k : Nat) :
    (m.clear a n).get k = if a ≤ k ∧ k < a + n then 0 else m.get k := by
  unfold Mem.clear Mem.get
  rw [FMap.get_filter_of Mem.blank m (fun j => decide (j < a) || decide (a + n ≤ j)) k]
  by_cases h : a ≤ k ∧ k < a + n
  · rw [if_pos h, if_neg (by simp; omega)]; rfl
  · rw [if_neg h, if_pos (by simp; omega)]

theorem Mem.length_read (m : Mem) (a n : Nat) : (m.read a n).length = n := by simp [Mem.read]

/-- The bytes read are the bytes at their addresses. -/
theorem Mem.read_eq (m : Mem) (a n : Nat) : m.read a n = (List.range n).map fun i => m.get (a + i) := by
  unfold Mem.read Mem.get
  apply List.map_congr_left
  intro i hi
  have := List.mem_range.mp hi
  have := FMap.get_filter_of Mem.blank m (fun j => decide (a ≤ j) && decide (j < a + n)) (a + i)
  rw [if_pos (by simp; omega)] at this
  exact this

end Sys2Proof.Machine
end

