-- ==== Sys2Proof/Laws/State.lean ====
section
/-! SUPPORT. What each update of the state leaves: one equation per field and reader, all true by definition. -/
namespace Sys2Proof.Machine

variable (s : State)

@[simp] theorem State.setTile_frame (t : TileAddr) (x : Tile) :
    (s.setTile t x).pending = s.pending ∧ (s.setTile t x).free = s.free ∧ (s.setTile t x).parts = s.parts ∧
    (s.setTile t x).regions = s.regions ∧ (s.setTile t x).headers = s.headers ∧ (s.setTile t x).vifs = s.vifs ∧
    (s.setTile t x).host = s.host ∧ (s.setTile t x).rows = s.rows ∧ (s.setTile t x).commits = s.commits ∧
    (s.setTile t x).rings = s.rings ∧ (s.setTile t x).handles = s.handles ∧ (s.setTile t x).kvp = s.kvp ∧
    (s.setTile t x).shipped = s.shipped ∧ (s.setTile t x).rnd = s.rnd ∧ (s.setTile t x).house = s.house ∧
    (s.setTile t x).ports = s.ports ∧ (s.setTile t x).hall = s.hall ∧ (s.setTile t x).cfgGen = s.cfgGen ∧
    (s.setTile t x).bru = s.bru ∧ (s.setTile t x).sec = s.sec ∧ (s.setTile t x).secWin = s.secWin ∧
    (s.setTile t x).cal = s.cal ∧ (s.setTile t x).twn = s.twn ∧ (s.setTile t x).fltQ = s.fltQ ∧
    (s.setTile t x).fltHist = s.fltHist ∧ (s.setTile t x).fltDone = s.fltDone ∧ (s.setTile t x).fltLost = s.fltLost ∧
    (s.setTile t x).strikes = s.strikes ∧ (s.setTile t x).struck = s.struck ∧ (s.setTile t x).heat = s.heat ∧
    (s.setTile t x).gov = s.gov ∧ (s.setTile t x).sense = s.sense ∧ (s.setTile t x).age = s.age ∧
    (s.setTile t x).heldLow = s.heldLow ∧ (s.setTile t x).capHigh = s.capHigh ∧ (s.setTile t x).capFlt = s.capFlt ∧
    (s.setTile t x).untold = s.untold ∧ (s.setTile t x).sufinDown = s.sufinDown ∧ (s.setTile t x).heldEvents = s.heldEvents ∧
    (s.setTile t x).recovery = s.recovery ∧ (∀ z, (s.setTile t x).part z = s.part z) ∧ (∀ z, (s.setTile t x).region z = s.region z) ∧
    (∀ z, (s.setTile t x).vif z = s.vif z) ∧ (∀ z, (s.setTile t x).row z = s.row z) ∧ (∀ z, (s.setTile t x).handle z = s.handle z) ∧
    (∀ z, (s.setTile t x).kv z = s.kv z) ∧ (∀ z, (s.setTile t x).rn z = s.rn z) ∧ (∀ z, (s.setTile t x).port z = s.port z) ∧
    (∀ z j, (s.setTile t x).header z j = s.header z j) ∧ (∀ z j, (s.setTile t x).ring z j = s.ring z j) :=
  ⟨rfl, rfl, rfl, rfl, rfl, rfl, rfl, rfl, rfl, rfl, rfl, rfl, rfl, rfl, rfl, rfl, rfl, rfl, rfl, rfl, rfl, rfl, rfl, rfl, rfl, rfl, rfl, rfl, rfl, rfl, rfl, rfl, rfl, rfl, rfl, rfl, rfl, rfl, rfl, rfl, fun _ => rfl, fun _ => rfl, fun _ => rfl, fun _ => rfl, fun _ => rfl, fun _ => rfl, fun _ => rfl, fun _ => rfl, fun _ _ => rfl, fun _ _ => rfl⟩

@[simp] theorem State.mapTile_frame (t : TileAddr) (g : Tile → Tile) :
    (s.mapTile t g).pending = s.pending ∧ (s.mapTile t g).free = s.free ∧ (s.mapTile t g).parts = s.parts ∧
    (s.mapTile t g).regions = s.regions ∧ (s.mapTile t g).headers = s.headers ∧ (s.mapTile t g).vifs = s.vifs ∧
    (s.mapTile t g).host = s.host ∧ (s.mapTile t g).rows = s.rows ∧ (s.mapTile t g).commits = s.commits ∧
    (s.mapTile t g).rings = s.rings ∧ (s.mapTile t g).handles = s.handles ∧ (s.mapTile t g).kvp = s.kvp ∧
    (s.mapTile t g).shipped = s.shipped ∧ (s.mapTile t g).rnd = s.rnd ∧ (s.mapTile t g).house = s.house ∧
    (s.mapTile t g).ports = s.ports ∧ (s.mapTile t g).hall = s.hall ∧ (s.mapTile t g).cfgGen = s.cfgGen ∧
    (s.mapTile t g).bru = s.bru ∧ (s.mapTile t g).sec = s.sec ∧ (s.mapTile t g).secWin = s.secWin ∧
    (s.mapTile t g).cal = s.cal ∧ (s.mapTile t g).twn = s.twn ∧ (s.mapTile t g).fltQ = s.fltQ ∧
    (s.mapTile t g).fltHist = s.fltHist ∧ (s.mapTile t g).fltDone = s.fltDone ∧ (s.mapTile t g).fltLost = s.fltLost ∧
    (s.mapTile t g).strikes = s.strikes ∧ (s.mapTile t g).struck = s.struck ∧ (s.mapTile t g).heat = s.heat ∧
    (s.mapTile t g).gov = s.gov ∧ (s.mapTile t g).sense = s.sense ∧ (s.mapTile t g).age = s.age ∧
    (s.mapTile t g).heldLow = s.heldLow ∧ (s.mapTile t g).capHigh = s.capHigh ∧ (s.mapTile t g).capFlt = s.capFlt ∧
    (s.mapTile t g).untold = s.untold ∧ (s.mapTile t g).sufinDown = s.sufinDown ∧ (s.mapTile t g).heldEvents = s.heldEvents ∧
    (s.mapTile t g).recovery = s.recovery ∧ (∀ z, (s.mapTile t g).part z = s.part z) ∧ (∀ z, (s.mapTile t g).region z = s.region z) ∧
    (∀ z, (s.mapTile t g).vif z = s.vif z) ∧ (∀ z, (s.mapTile t g).row z = s.row z) ∧ (∀ z, (s.mapTile t g).handle z = s.handle z) ∧
    (∀ z, (s.mapTile t g).kv z = s.kv z) ∧ (∀ z, (s.mapTile t g).rn z = s.rn z) ∧ (∀ z, (s.mapTile t g).port z = s.port z) ∧
    (∀ z j, (s.mapTile t g).header z j = s.header z j) ∧ (∀ z j, (s.mapTile t g).ring z j = s.ring z j) :=
  ⟨rfl, rfl, rfl, rfl, rfl, rfl, rfl, rfl, rfl, rfl, rfl, rfl, rfl, rfl, rfl, rfl, rfl, rfl, rfl, rfl, rfl, rfl, rfl, rfl, rfl, rfl, rfl, rfl, rfl, rfl, rfl, rfl, rfl, rfl, rfl, rfl, rfl, rfl, rfl, rfl, fun _ => rfl, fun _ => rfl, fun _ => rfl, fun _ => rfl, fun _ => rfl, fun _ => rfl, fun _ => rfl, fun _ => rfl, fun _ _ => rfl, fun _ _ => rfl⟩

@[simp] theorem State.setPart_frame (p : Nat) (x : Partition) :
    (s.setPart p x).pending = s.pending ∧ (s.setPart p x).free = s.free ∧ (s.setPart p x).tiles = s.tiles ∧
    (s.setPart p x).regions = s.regions ∧ (s.setPart p x).headers = s.headers ∧ (s.setPart p x).vifs = s.vifs ∧
    (s.setPart p x).host = s.host ∧ (s.setPart p x).rows = s.rows ∧ (s.setPart p x).commits = s.commits ∧
    (s.setPart p x).rings = s.rings ∧ (s.setPart p x).handles = s.handles ∧ (s.setPart p x).kvp = s.kvp ∧
    (s.setPart p x).shipped = s.shipped ∧ (s.setPart p x).rnd = s.rnd ∧ (s.setPart p x).house = s.house ∧
    (s.setPart p x).ports = s.ports ∧ (s.setPart p x).hall = s.hall ∧ (s.setPart p x).cfgGen = s.cfgGen ∧
    (s.setPart p x).bru = s.bru ∧ (s.setPart p x).sec = s.sec ∧ (s.setPart p x).secWin = s.secWin ∧
    (s.setPart p x).cal = s.cal ∧ (s.setPart p x).twn = s.twn ∧ (s.setPart p x).fltQ = s.fltQ ∧
    (s.setPart p x).fltHist = s.fltHist ∧ (s.setPart p x).fltDone = s.fltDone ∧ (s.setPart p x).fltLost = s.fltLost ∧
    (s.setPart p x).strikes = s.strikes ∧ (s.setPart p x).struck = s.struck ∧ (s.setPart p x).heat = s.heat ∧
    (s.setPart p x).gov = s.gov ∧ (s.setPart p x).sense = s.sense ∧ (s.setPart p x).age = s.age ∧
    (s.setPart p x).heldLow = s.heldLow ∧ (s.setPart p x).capHigh = s.capHigh ∧ (s.setPart p x).capFlt = s.capFlt ∧
    (s.setPart p x).untold = s.untold ∧ (s.setPart p x).sufinDown = s.sufinDown ∧ (s.setPart p x).heldEvents = s.heldEvents ∧
    (s.setPart p x).recovery = s.recovery ∧ (∀ z, (s.setPart p x).tile z = s.tile z) ∧ (∀ z, (s.setPart p x).region z = s.region z) ∧
    (∀ z, (s.setPart p x).vif z = s.vif z) ∧ (∀ z, (s.setPart p x).row z = s.row z) ∧ (∀ z, (s.setPart p x).handle z = s.handle z) ∧
    (∀ z, (s.setPart p x).kv z = s.kv z) ∧ (∀ z, (s.setPart p x).rn z = s.rn z) ∧ (∀ z, (s.setPart p x).port z = s.port z) ∧
    (∀ z j, (s.setPart p x).header z j = s.header z j) ∧ (∀ z j, (s.setPart p x).ring z j = s.ring z j) :=
  ⟨rfl, rfl, rfl, rfl, rfl, rfl, rfl, rfl, rfl, rfl, rfl, rfl, rfl, rfl, rfl, rfl, rfl, rfl, rfl, rfl, rfl, rfl, rfl, rfl, rfl, rfl, rfl, rfl, rfl, rfl, rfl, rfl, rfl, rfl, rfl, rfl, rfl, rfl, rfl, rfl, fun _ => rfl, fun _ => rfl, fun _ => rfl, fun _ => rfl, fun _ => rfl, fun _ => rfl, fun _ => rfl, fun _ => rfl, fun _ _ => rfl, fun _ _ => rfl⟩

@[simp] theorem State.mapPart_frame (p : Nat) (g : Partition → Partition) :
    (s.mapPart p g).pending = s.pending ∧ (s.mapPart p g).free = s.free ∧ (s.mapPart p g).tiles = s.tiles ∧
    (s.mapPart p g).regions = s.regions ∧ (s.mapPart p g).headers = s.headers ∧ (s.mapPart p g).vifs = s.vifs ∧
    (s.mapPart p g).host = s.host ∧ (s.mapPart p g).rows = s.rows ∧ (s.mapPart p g).commits = s.commits ∧
    (s.mapPart p g).rings = s.rings ∧ (s.mapPart p g).handles = s.handles ∧ (s.mapPart p g).kvp = s.kvp ∧
    (s.mapPart p g).shipped = s.shipped ∧ (s.mapPart p g).rnd = s.rnd ∧ (s.mapPart p g).house = s.house ∧
    (s.mapPart p g).ports = s.ports ∧ (s.mapPart p g).hall = s.hall ∧ (s.mapPart p g).cfgGen = s.cfgGen ∧
    (s.mapPart p g).bru = s.bru ∧ (s.mapPart p g).sec = s.sec ∧ (s.mapPart p g).secWin = s.secWin ∧
    (s.mapPart p g).cal = s.cal ∧ (s.mapPart p g).twn = s.twn ∧ (s.mapPart p g).fltQ = s.fltQ ∧
    (s.mapPart p g).fltHist = s.fltHist ∧ (s.mapPart p g).fltDone = s.fltDone ∧ (s.mapPart p g).fltLost = s.fltLost ∧
    (s.mapPart p g).strikes = s.strikes ∧ (s.mapPart p g).struck = s.struck ∧ (s.mapPart p g).heat = s.heat ∧
    (s.mapPart p g).gov = s.gov ∧ (s.mapPart p g).sense = s.sense ∧ (s.mapPart p g).age = s.age ∧
    (s.mapPart p g).heldLow = s.heldLow ∧ (s.mapPart p g).capHigh = s.capHigh ∧ (s.mapPart p g).capFlt = s.capFlt ∧
    (s.mapPart p g).untold = s.untold ∧ (s.mapPart p g).sufinDown = s.sufinDown ∧ (s.mapPart p g).heldEvents = s.heldEvents ∧
    (s.mapPart p g).recovery = s.recovery ∧ (∀ z, (s.mapPart p g).tile z = s.tile z) ∧ (∀ z, (s.mapPart p g).region z = s.region z) ∧
    (∀ z, (s.mapPart p g).vif z = s.vif z) ∧ (∀ z, (s.mapPart p g).row z = s.row z) ∧ (∀ z, (s.mapPart p g).handle z = s.handle z) ∧
    (∀ z, (s.mapPart p g).kv z = s.kv z) ∧ (∀ z, (s.mapPart p g).rn z = s.rn z) ∧ (∀ z, (s.mapPart p g).port z = s.port z) ∧
    (∀ z j, (s.mapPart p g).header z j = s.header z j) ∧ (∀ z j, (s.mapPart p g).ring z j = s.ring z j) :=
  ⟨rfl, rfl, rfl, rfl, rfl, rfl, rfl, rfl, rfl, rfl, rfl, rfl, rfl, rfl, rfl, rfl, rfl, rfl, rfl, rfl, rfl, rfl, rfl, rfl, rfl, rfl, rfl, rfl, rfl, rfl, rfl, rfl, rfl, rfl, rfl, rfl, rfl, rfl, rfl, rfl, fun _ => rfl, fun _ => rfl, fun _ => rfl, fun _ => rfl, fun _ => rfl, fun _ => rfl, fun _ => rfl, fun _ => rfl, fun _ _ => rfl, fun _ _ => rfl⟩

@[simp] theorem State.setRegion_frame (r : Nat) (x : Region) :
    (s.setRegion r x).pending = s.pending ∧ (s.setRegion r x).free = s.free ∧ (s.setRegion r x).tiles = s.tiles ∧
    (s.setRegion r x).parts = s.parts ∧ (s.setRegion r x).headers = s.headers ∧ (s.setRegion r x).vifs = s.vifs ∧
    (s.setRegion r x).host = s.host ∧ (s.setRegion r x).rows = s.rows ∧ (s.setRegion r x).commits = s.commits ∧
    (s.setRegion r x).rings = s.rings ∧ (s.setRegion r x).handles = s.handles ∧ (s.setRegion r x).kvp = s.kvp ∧
    (s.setRegion r x).shipped = s.shipped ∧ (s.setRegion r x).rnd = s.rnd ∧ (s.setRegion r x).house = s.house ∧
    (s.setRegion r x).ports = s.ports ∧ (s.setRegion r x).hall = s.hall ∧ (s.setRegion r x).cfgGen = s.cfgGen ∧
    (s.setRegion r x).bru = s.bru ∧ (s.setRegion r x).sec = s.sec ∧ (s.setRegion r x).secWin = s.secWin ∧
    (s.setRegion r x).cal = s.cal ∧ (s.setRegion r x).twn = s.twn ∧ (s.setRegion r x).fltQ = s.fltQ ∧
    (s.setRegion r x).fltHist = s.fltHist ∧ (s.setRegion r x).fltDone = s.fltDone ∧ (s.setRegion r x).fltLost = s.fltLost ∧
    (s.setRegion r x).strikes = s.strikes ∧ (s.setRegion r x).struck = s.struck ∧ (s.setRegion r x).heat = s.heat ∧
    (s.setRegion r x).gov = s.gov ∧ (s.setRegion r x).sense = s.sense ∧ (s.setRegion r x).age = s.age ∧
    (s.setRegion r x).heldLow = s.heldLow ∧ (s.setRegion r x).capHigh = s.capHigh ∧ (s.setRegion r x).capFlt = s.capFlt ∧
    (s.setRegion r x).untold = s.untold ∧ (s.setRegion r x).sufinDown = s.sufinDown ∧ (s.setRegion r x).heldEvents = s.heldEvents ∧
    (s.setRegion r x).recovery = s.recovery ∧ (∀ z, (s.setRegion r x).tile z = s.tile z) ∧ (∀ z, (s.setRegion r x).part z = s.part z) ∧
    (∀ z, (s.setRegion r x).vif z = s.vif z) ∧ (∀ z, (s.setRegion r x).row z = s.row z) ∧ (∀ z, (s.setRegion r x).handle z = s.handle z) ∧
    (∀ z, (s.setRegion r x).kv z = s.kv z) ∧ (∀ z, (s.setRegion r x).rn z = s.rn z) ∧ (∀ z, (s.setRegion r x).port z = s.port z) ∧
    (∀ z j, (s.setRegion r x).header z j = s.header z j) ∧ (∀ z j, (s.setRegion r x).ring z j = s.ring z j) :=
  ⟨rfl, rfl, rfl, rfl, rfl, rfl, rfl, rfl, rfl, rfl, rfl, rfl, rfl, rfl, rfl, rfl, rfl, rfl, rfl, rfl, rfl, rfl, rfl, rfl, rfl, rfl, rfl, rfl, rfl, rfl, rfl, rfl, rfl, rfl, rfl, rfl, rfl, rfl, rfl, rfl, fun _ => rfl, fun _ => rfl, fun _ => rfl, fun _ => rfl, fun _ => rfl, fun _ => rfl, fun _ => rfl, fun _ => rfl, fun _ _ => rfl, fun _ _ => rfl⟩

@[simp] theorem State.setVif_frame (n : Nat) (x : Vif) :
    (s.setVif n x).pending = s.pending ∧ (s.setVif n x).free = s.free ∧ (s.setVif n x).tiles = s.tiles ∧
    (s.setVif n x).parts = s.parts ∧ (s.setVif n x).regions = s.regions ∧ (s.setVif n x).headers = s.headers ∧
    (s.setVif n x).host = s.host ∧ (s.setVif n x).rows = s.rows ∧ (s.setVif n x).commits = s.commits ∧
    (s.setVif n x).rings = s.rings ∧ (s.setVif n x).handles = s.handles ∧ (s.setVif n x).kvp = s.kvp ∧
    (s.setVif n x).shipped = s.shipped ∧ (s.setVif n x).rnd = s.rnd ∧ (s.setVif n x).house = s.house ∧
    (s.setVif n x).ports = s.ports ∧ (s.setVif n x).hall = s.hall ∧ (s.setVif n x).cfgGen = s.cfgGen ∧
    (s.setVif n x).bru = s.bru ∧ (s.setVif n x).sec = s.sec ∧ (s.setVif n x).secWin = s.secWin ∧
    (s.setVif n x).cal = s.cal ∧ (s.setVif n x).twn = s.twn ∧ (s.setVif n x).fltQ = s.fltQ ∧
    (s.setVif n x).fltHist = s.fltHist ∧ (s.setVif n x).fltDone = s.fltDone ∧ (s.setVif n x).fltLost = s.fltLost ∧
    (s.setVif n x).strikes = s.strikes ∧ (s.setVif n x).struck = s.struck ∧ (s.setVif n x).heat = s.heat ∧
    (s.setVif n x).gov = s.gov ∧ (s.setVif n x).sense = s.sense ∧ (s.setVif n x).age = s.age ∧
    (s.setVif n x).heldLow = s.heldLow ∧ (s.setVif n x).capHigh = s.capHigh ∧ (s.setVif n x).capFlt = s.capFlt ∧
    (s.setVif n x).untold = s.untold ∧ (s.setVif n x).sufinDown = s.sufinDown ∧ (s.setVif n x).heldEvents = s.heldEvents ∧
    (s.setVif n x).recovery = s.recovery ∧ (∀ z, (s.setVif n x).tile z = s.tile z) ∧ (∀ z, (s.setVif n x).part z = s.part z) ∧
    (∀ z, (s.setVif n x).region z = s.region z) ∧ (∀ z, (s.setVif n x).row z = s.row z) ∧ (∀ z, (s.setVif n x).handle z = s.handle z) ∧
    (∀ z, (s.setVif n x).kv z = s.kv z) ∧ (∀ z, (s.setVif n x).rn z = s.rn z) ∧ (∀ z, (s.setVif n x).port z = s.port z) ∧
    (∀ z j, (s.setVif n x).header z j = s.header z j) ∧ (∀ z j, (s.setVif n x).ring z j = s.ring z j) :=
  ⟨rfl, rfl, rfl, rfl, rfl, rfl, rfl, rfl, rfl, rfl, rfl, rfl, rfl, rfl, rfl, rfl, rfl, rfl, rfl, rfl, rfl, rfl, rfl, rfl, rfl, rfl, rfl, rfl, rfl, rfl, rfl, rfl, rfl, rfl, rfl, rfl, rfl, rfl, rfl, rfl, fun _ => rfl, fun _ => rfl, fun _ => rfl, fun _ => rfl, fun _ => rfl, fun _ => rfl, fun _ => rfl, fun _ => rfl, fun _ _ => rfl, fun _ _ => rfl⟩

@[simp] theorem State.setHeader_frame (w p : Nat) (x : Header) :
    (s.setHeader w p x).pending = s.pending ∧ (s.setHeader w p x).free = s.free ∧ (s.setHeader w p x).tiles = s.tiles ∧
    (s.setHeader w p x).parts = s.parts ∧ (s.setHeader w p x).regions = s.regions ∧ (s.setHeader w p x).vifs = s.vifs ∧
    (s.setHeader w p x).host = s.host ∧ (s.setHeader w p x).rows = s.rows ∧ (s.setHeader w p x).commits = s.commits ∧
    (s.setHeader w p x).rings = s.rings ∧ (s.setHeader w p x).handles = s.handles ∧ (s.setHeader w p x).kvp = s.kvp ∧
    (s.setHeader w p x).shipped = s.shipped ∧ (s.setHeader w p x).rnd = s.rnd ∧ (s.setHeader w p x).house = s.house ∧
    (s.setHeader w p x).ports = s.ports ∧ (s.setHeader w p x).hall = s.hall ∧ (s.setHeader w p x).cfgGen = s.cfgGen ∧
    (s.setHeader w p x).bru = s.bru ∧ (s.setHeader w p x).sec = s.sec ∧ (s.setHeader w p x).secWin = s.secWin ∧
    (s.setHeader w p x).cal = s.cal ∧ (s.setHeader w p x).twn = s.twn ∧ (s.setHeader w p x).fltQ = s.fltQ ∧
    (s.setHeader w p x).fltHist = s.fltHist ∧ (s.setHeader w p x).fltDone = s.fltDone ∧ (s.setHeader w p x).fltLost = s.fltLost ∧
    (s.setHeader w p x).strikes = s.strikes ∧ (s.setHeader w p x).struck = s.struck ∧ (s.setHeader w p x).heat = s.heat ∧
    (s.setHeader w p x).gov = s.gov ∧ (s.setHeader w p x).sense = s.sense ∧ (s.setHeader w p x).age = s.age ∧
    (s.setHeader w p x).heldLow = s.heldLow ∧ (s.setHeader w p x).capHigh = s.capHigh ∧ (s.setHeader w p x).capFlt = s.capFlt ∧
    (s.setHeader w p x).untold = s.untold ∧ (s.setHeader w p x).sufinDown = s.sufinDown ∧ (s.setHeader w p x).heldEvents = s.heldEvents ∧
    (s.setHeader w p x).recovery = s.recovery ∧ (∀ z, (s.setHeader w p x).tile z = s.tile z) ∧ (∀ z, (s.setHeader w p x).part z = s.part z) ∧
    (∀ z, (s.setHeader w p x).region z = s.region z) ∧ (∀ z, (s.setHeader w p x).vif z = s.vif z) ∧ (∀ z, (s.setHeader w p x).row z = s.row z) ∧
    (∀ z, (s.setHeader w p x).handle z = s.handle z) ∧ (∀ z, (s.setHeader w p x).kv z = s.kv z) ∧ (∀ z, (s.setHeader w p x).rn z = s.rn z) ∧
    (∀ z, (s.setHeader w p x).port z = s.port z) ∧ (∀ z j, (s.setHeader w p x).ring z j = s.ring z j) :=
  ⟨rfl, rfl, rfl, rfl, rfl, rfl, rfl, rfl, rfl, rfl, rfl, rfl, rfl, rfl, rfl, rfl, rfl, rfl, rfl, rfl, rfl, rfl, rfl, rfl, rfl, rfl, rfl, rfl, rfl, rfl, rfl, rfl, rfl, rfl, rfl, rfl, rfl, rfl, rfl, rfl, fun _ => rfl, fun _ => rfl, fun _ => rfl, fun _ => rfl, fun _ => rfl, fun _ => rfl, fun _ => rfl, fun _ => rfl, fun _ => rfl, fun _ _ => rfl⟩

@[simp] theorem State.setRow_frame (r : Nat) (x : Row) :
    (s.setRow r x).pending = s.pending ∧ (s.setRow r x).free = s.free ∧ (s.setRow r x).tiles = s.tiles ∧
    (s.setRow r x).parts = s.parts ∧ (s.setRow r x).regions = s.regions ∧ (s.setRow r x).headers = s.headers ∧
    (s.setRow r x).vifs = s.vifs ∧ (s.setRow r x).host = s.host ∧ (s.setRow r x).commits = s.commits ∧
    (s.setRow r x).rings = s.rings ∧ (s.setRow r x).handles = s.handles ∧ (s.setRow r x).kvp = s.kvp ∧
    (s.setRow r x).shipped = s.shipped ∧ (s.setRow r x).rnd = s.rnd ∧ (s.setRow r x).house = s.house ∧
    (s.setRow r x).ports = s.ports ∧ (s.setRow r x).hall = s.hall ∧ (s.setRow r x).cfgGen = s.cfgGen ∧
    (s.setRow r x).bru = s.bru ∧ (s.setRow r x).sec = s.sec ∧ (s.setRow r x).secWin = s.secWin ∧
    (s.setRow r x).cal = s.cal ∧ (s.setRow r x).twn = s.twn ∧ (s.setRow r x).fltQ = s.fltQ ∧
    (s.setRow r x).fltHist = s.fltHist ∧ (s.setRow r x).fltDone = s.fltDone ∧ (s.setRow r x).fltLost = s.fltLost ∧
    (s.setRow r x).strikes = s.strikes ∧ (s.setRow r x).struck = s.struck ∧ (s.setRow r x).heat = s.heat ∧
    (s.setRow r x).gov = s.gov ∧ (s.setRow r x).sense = s.sense ∧ (s.setRow r x).age = s.age ∧
    (s.setRow r x).heldLow = s.heldLow ∧ (s.setRow r x).capHigh = s.capHigh ∧ (s.setRow r x).capFlt = s.capFlt ∧
    (s.setRow r x).untold = s.untold ∧ (s.setRow r x).sufinDown = s.sufinDown ∧ (s.setRow r x).heldEvents = s.heldEvents ∧
    (s.setRow r x).recovery = s.recovery ∧ (∀ z, (s.setRow r x).tile z = s.tile z) ∧ (∀ z, (s.setRow r x).part z = s.part z) ∧
    (∀ z, (s.setRow r x).region z = s.region z) ∧ (∀ z, (s.setRow r x).vif z = s.vif z) ∧ (∀ z, (s.setRow r x).handle z = s.handle z) ∧
    (∀ z, (s.setRow r x).kv z = s.kv z) ∧ (∀ z, (s.setRow r x).rn z = s.rn z) ∧ (∀ z, (s.setRow r x).port z = s.port z) ∧
    (∀ z j, (s.setRow r x).header z j = s.header z j) ∧ (∀ z j, (s.setRow r x).ring z j = s.ring z j) :=
  ⟨rfl, rfl, rfl, rfl, rfl, rfl, rfl, rfl, rfl, rfl, rfl, rfl, rfl, rfl, rfl, rfl, rfl, rfl, rfl, rfl, rfl, rfl, rfl, rfl, rfl, rfl, rfl, rfl, rfl, rfl, rfl, rfl, rfl, rfl, rfl, rfl, rfl, rfl, rfl, rfl, fun _ => rfl, fun _ => rfl, fun _ => rfl, fun _ => rfl, fun _ => rfl, fun _ => rfl, fun _ => rfl, fun _ => rfl, fun _ _ => rfl, fun _ _ => rfl⟩

@[simp] theorem State.mapRow_frame (r : Nat) (g : Row → Row) :
    (s.mapRow r g).pending = s.pending ∧ (s.mapRow r g).free = s.free ∧ (s.mapRow r g).tiles = s.tiles ∧
    (s.mapRow r g).parts = s.parts ∧ (s.mapRow r g).regions = s.regions ∧ (s.mapRow r g).headers = s.headers ∧
    (s.mapRow r g).vifs = s.vifs ∧ (s.mapRow r g).host = s.host ∧ (s.mapRow r g).commits = s.commits ∧
    (s.mapRow r g).rings = s.rings ∧ (s.mapRow r g).handles = s.handles ∧ (s.mapRow r g).kvp = s.kvp ∧
    (s.mapRow r g).shipped = s.shipped ∧ (s.mapRow r g).rnd = s.rnd ∧ (s.mapRow r g).house = s.house ∧
    (s.mapRow r g).ports = s.ports ∧ (s.mapRow r g).hall = s.hall ∧ (s.mapRow r g).cfgGen = s.cfgGen ∧
    (s.mapRow r g).bru = s.bru ∧ (s.mapRow r g).sec = s.sec ∧ (s.mapRow r g).secWin = s.secWin ∧
    (s.mapRow r g).cal = s.cal ∧ (s.mapRow r g).twn = s.twn ∧ (s.mapRow r g).fltQ = s.fltQ ∧
    (s.mapRow r g).fltHist = s.fltHist ∧ (s.mapRow r g).fltDone = s.fltDone ∧ (s.mapRow r g).fltLost = s.fltLost ∧
    (s.mapRow r g).strikes = s.strikes ∧ (s.mapRow r g).struck = s.struck ∧ (s.mapRow r g).heat = s.heat ∧
    (s.mapRow r g).gov = s.gov ∧ (s.mapRow r g).sense = s.sense ∧ (s.mapRow r g).age = s.age ∧
    (s.mapRow r g).heldLow = s.heldLow ∧ (s.mapRow r g).capHigh = s.capHigh ∧ (s.mapRow r g).capFlt = s.capFlt ∧
    (s.mapRow r g).untold = s.untold ∧ (s.mapRow r g).sufinDown = s.sufinDown ∧ (s.mapRow r g).heldEvents = s.heldEvents ∧
    (s.mapRow r g).recovery = s.recovery ∧ (∀ z, (s.mapRow r g).tile z = s.tile z) ∧ (∀ z, (s.mapRow r g).part z = s.part z) ∧
    (∀ z, (s.mapRow r g).region z = s.region z) ∧ (∀ z, (s.mapRow r g).vif z = s.vif z) ∧ (∀ z, (s.mapRow r g).handle z = s.handle z) ∧
    (∀ z, (s.mapRow r g).kv z = s.kv z) ∧ (∀ z, (s.mapRow r g).rn z = s.rn z) ∧ (∀ z, (s.mapRow r g).port z = s.port z) ∧
    (∀ z j, (s.mapRow r g).header z j = s.header z j) ∧ (∀ z j, (s.mapRow r g).ring z j = s.ring z j) :=
  ⟨rfl, rfl, rfl, rfl, rfl, rfl, rfl, rfl, rfl, rfl, rfl, rfl, rfl, rfl, rfl, rfl, rfl, rfl, rfl, rfl, rfl, rfl, rfl, rfl, rfl, rfl, rfl, rfl, rfl, rfl, rfl, rfl, rfl, rfl, rfl, rfl, rfl, rfl, rfl, rfl, fun _ => rfl, fun _ => rfl, fun _ => rfl, fun _ => rfl, fun _ => rfl, fun _ => rfl, fun _ => rfl, fun _ => rfl, fun _ _ => rfl, fun _ _ => rfl⟩

@[simp] theorem State.setRing_frame (w k : Nat) (x : Ring) :
    (s.setRing w k x).pending = s.pending ∧ (s.setRing w k x).free = s.free ∧ (s.setRing w k x).tiles = s.tiles ∧
    (s.setRing w k x).parts = s.parts ∧ (s.setRing w k x).regions = s.regions ∧ (s.setRing w k x).headers = s.headers ∧
    (s.setRing w k x).vifs = s.vifs ∧ (s.setRing w k x).host = s.host ∧ (s.setRing w k x).rows = s.rows ∧
    (s.setRing w k x).commits = s.commits ∧ (s.setRing w k x).handles = s.handles ∧ (s.setRing w k x).kvp = s.kvp ∧
    (s.setRing w k x).shipped = s.shipped ∧ (s.setRing w k x).rnd = s.rnd ∧ (s.setRing w k x).house = s.house ∧
    (s.setRing w k x).ports = s.ports ∧ (s.setRing w k x).hall = s.hall ∧ (s.setRing w k x).cfgGen = s.cfgGen ∧
    (s.setRing w k x).bru = s.bru ∧ (s.setRing w k x).sec = s.sec ∧ (s.setRing w k x).secWin = s.secWin ∧
    (s.setRing w k x).cal = s.cal ∧ (s.setRing w k x).twn = s.twn ∧ (s.setRing w k x).fltQ = s.fltQ ∧
    (s.setRing w k x).fltHist = s.fltHist ∧ (s.setRing w k x).fltDone = s.fltDone ∧ (s.setRing w k x).fltLost = s.fltLost ∧
    (s.setRing w k x).strikes = s.strikes ∧ (s.setRing w k x).struck = s.struck ∧ (s.setRing w k x).heat = s.heat ∧
    (s.setRing w k x).gov = s.gov ∧ (s.setRing w k x).sense = s.sense ∧ (s.setRing w k x).age = s.age ∧
    (s.setRing w k x).heldLow = s.heldLow ∧ (s.setRing w k x).capHigh = s.capHigh ∧ (s.setRing w k x).capFlt = s.capFlt ∧
    (s.setRing w k x).untold = s.untold ∧ (s.setRing w k x).sufinDown = s.sufinDown ∧ (s.setRing w k x).heldEvents = s.heldEvents ∧
    (s.setRing w k x).recovery = s.recovery ∧ (∀ z, (s.setRing w k x).tile z = s.tile z) ∧ (∀ z, (s.setRing w k x).part z = s.part z) ∧
    (∀ z, (s.setRing w k x).region z = s.region z) ∧ (∀ z, (s.setRing w k x).vif z = s.vif z) ∧ (∀ z, (s.setRing w k x).row z = s.row z) ∧
    (∀ z, (s.setRing w k x).handle z = s.handle z) ∧ (∀ z, (s.setRing w k x).kv z = s.kv z) ∧ (∀ z, (s.setRing w k x).rn z = s.rn z) ∧
    (∀ z, (s.setRing w k x).port z = s.port z) ∧ (∀ z j, (s.setRing w k x).header z j = s.header z j) :=
  ⟨rfl, rfl, rfl, rfl, rfl, rfl, rfl, rfl, rfl, rfl, rfl, rfl, rfl, rfl, rfl, rfl, rfl, rfl, rfl, rfl, rfl, rfl, rfl, rfl, rfl, rfl, rfl, rfl, rfl, rfl, rfl, rfl, rfl, rfl, rfl, rfl, rfl, rfl, rfl, rfl, fun _ => rfl, fun _ => rfl, fun _ => rfl, fun _ => rfl, fun _ => rfl, fun _ => rfl, fun _ => rfl, fun _ => rfl, fun _ => rfl, fun _ _ => rfl⟩

@[simp] theorem State.setHandle_frame (h : Nat) (x : Handle) :
    (s.setHandle h x).pending = s.pending ∧ (s.setHandle h x).free = s.free ∧ (s.setHandle h x).tiles = s.tiles ∧
    (s.setHandle h x).parts = s.parts ∧ (s.setHandle h x).regions = s.regions ∧ (s.setHandle h x).headers = s.headers ∧
    (s.setHandle h x).vifs = s.vifs ∧ (s.setHandle h x).host = s.host ∧ (s.setHandle h x).rows = s.rows ∧
    (s.setHandle h x).commits = s.commits ∧ (s.setHandle h x).rings = s.rings ∧ (s.setHandle h x).kvp = s.kvp ∧
    (s.setHandle h x).shipped = s.shipped ∧ (s.setHandle h x).rnd = s.rnd ∧ (s.setHandle h x).house = s.house ∧
    (s.setHandle h x).ports = s.ports ∧ (s.setHandle h x).hall = s.hall ∧ (s.setHandle h x).cfgGen = s.cfgGen ∧
    (s.setHandle h x).bru = s.bru ∧ (s.setHandle h x).sec = s.sec ∧ (s.setHandle h x).secWin = s.secWin ∧
    (s.setHandle h x).cal = s.cal ∧ (s.setHandle h x).twn = s.twn ∧ (s.setHandle h x).fltQ = s.fltQ ∧
    (s.setHandle h x).fltHist = s.fltHist ∧ (s.setHandle h x).fltDone = s.fltDone ∧ (s.setHandle h x).fltLost = s.fltLost ∧
    (s.setHandle h x).strikes = s.strikes ∧ (s.setHandle h x).struck = s.struck ∧ (s.setHandle h x).heat = s.heat ∧
    (s.setHandle h x).gov = s.gov ∧ (s.setHandle h x).sense = s.sense ∧ (s.setHandle h x).age = s.age ∧
    (s.setHandle h x).heldLow = s.heldLow ∧ (s.setHandle h x).capHigh = s.capHigh ∧ (s.setHandle h x).capFlt = s.capFlt ∧
    (s.setHandle h x).untold = s.untold ∧ (s.setHandle h x).sufinDown = s.sufinDown ∧ (s.setHandle h x).heldEvents = s.heldEvents ∧
    (s.setHandle h x).recovery = s.recovery ∧ (∀ z, (s.setHandle h x).tile z = s.tile z) ∧ (∀ z, (s.setHandle h x).part z = s.part z) ∧
    (∀ z, (s.setHandle h x).region z = s.region z) ∧ (∀ z, (s.setHandle h x).vif z = s.vif z) ∧ (∀ z, (s.setHandle h x).row z = s.row z) ∧
    (∀ z, (s.setHandle h x).kv z = s.kv z) ∧ (∀ z, (s.setHandle h x).rn z = s.rn z) ∧ (∀ z, (s.setHandle h x).port z = s.port z) ∧
    (∀ z j, (s.setHandle h x).header z j = s.header z j) ∧ (∀ z j, (s.setHandle h x).ring z j = s.ring z j) :=
  ⟨rfl, rfl, rfl, rfl, rfl, rfl, rfl, rfl, rfl, rfl, rfl, rfl, rfl, rfl, rfl, rfl, rfl, rfl, rfl, rfl, rfl, rfl, rfl, rfl, rfl, rfl, rfl, rfl, rfl, rfl, rfl, rfl, rfl, rfl, rfl, rfl, rfl, rfl, rfl, rfl, fun _ => rfl, fun _ => rfl, fun _ => rfl, fun _ => rfl, fun _ => rfl, fun _ => rfl, fun _ => rfl, fun _ => rfl, fun _ _ => rfl, fun _ _ => rfl⟩

@[simp] theorem State.setKv_frame (w : Nat) (x : KvWin) :
    (s.setKv w x).pending = s.pending ∧ (s.setKv w x).free = s.free ∧ (s.setKv w x).tiles = s.tiles ∧
    (s.setKv w x).parts = s.parts ∧ (s.setKv w x).regions = s.regions ∧ (s.setKv w x).headers = s.headers ∧
    (s.setKv w x).vifs = s.vifs ∧ (s.setKv w x).host = s.host ∧ (s.setKv w x).rows = s.rows ∧
    (s.setKv w x).commits = s.commits ∧ (s.setKv w x).rings = s.rings ∧ (s.setKv w x).handles = s.handles ∧
    (s.setKv w x).shipped = s.shipped ∧ (s.setKv w x).rnd = s.rnd ∧ (s.setKv w x).house = s.house ∧
    (s.setKv w x).ports = s.ports ∧ (s.setKv w x).hall = s.hall ∧ (s.setKv w x).cfgGen = s.cfgGen ∧
    (s.setKv w x).bru = s.bru ∧ (s.setKv w x).sec = s.sec ∧ (s.setKv w x).secWin = s.secWin ∧
    (s.setKv w x).cal = s.cal ∧ (s.setKv w x).twn = s.twn ∧ (s.setKv w x).fltQ = s.fltQ ∧
    (s.setKv w x).fltHist = s.fltHist ∧ (s.setKv w x).fltDone = s.fltDone ∧ (s.setKv w x).fltLost = s.fltLost ∧
    (s.setKv w x).strikes = s.strikes ∧ (s.setKv w x).struck = s.struck ∧ (s.setKv w x).heat = s.heat ∧
    (s.setKv w x).gov = s.gov ∧ (s.setKv w x).sense = s.sense ∧ (s.setKv w x).age = s.age ∧
    (s.setKv w x).heldLow = s.heldLow ∧ (s.setKv w x).capHigh = s.capHigh ∧ (s.setKv w x).capFlt = s.capFlt ∧
    (s.setKv w x).untold = s.untold ∧ (s.setKv w x).sufinDown = s.sufinDown ∧ (s.setKv w x).heldEvents = s.heldEvents ∧
    (s.setKv w x).recovery = s.recovery ∧ (∀ z, (s.setKv w x).tile z = s.tile z) ∧ (∀ z, (s.setKv w x).part z = s.part z) ∧
    (∀ z, (s.setKv w x).region z = s.region z) ∧ (∀ z, (s.setKv w x).vif z = s.vif z) ∧ (∀ z, (s.setKv w x).row z = s.row z) ∧
    (∀ z, (s.setKv w x).handle z = s.handle z) ∧ (∀ z, (s.setKv w x).rn z = s.rn z) ∧ (∀ z, (s.setKv w x).port z = s.port z) ∧
    (∀ z j, (s.setKv w x).header z j = s.header z j) ∧ (∀ z j, (s.setKv w x).ring z j = s.ring z j) :=
  ⟨rfl, rfl, rfl, rfl, rfl, rfl, rfl, rfl, rfl, rfl, rfl, rfl, rfl, rfl, rfl, rfl, rfl, rfl, rfl, rfl, rfl, rfl, rfl, rfl, rfl, rfl, rfl, rfl, rfl, rfl, rfl, rfl, rfl, rfl, rfl, rfl, rfl, rfl, rfl, rfl, fun _ => rfl, fun _ => rfl, fun _ => rfl, fun _ => rfl, fun _ => rfl, fun _ => rfl, fun _ => rfl, fun _ => rfl, fun _ _ => rfl, fun _ _ => rfl⟩

@[simp] theorem State.setRn_frame (w : Nat) (x : RndWin) :
    (s.setRn w x).pending = s.pending ∧ (s.setRn w x).free = s.free ∧ (s.setRn w x).tiles = s.tiles ∧
    (s.setRn w x).parts = s.parts ∧ (s.setRn w x).regions = s.regions ∧ (s.setRn w x).headers = s.headers ∧
    (s.setRn w x).vifs = s.vifs ∧ (s.setRn w x).host = s.host ∧ (s.setRn w x).rows = s.rows ∧
    (s.setRn w x).commits = s.commits ∧ (s.setRn w x).rings = s.rings ∧ (s.setRn w x).handles = s.handles ∧
    (s.setRn w x).kvp = s.kvp ∧ (s.setRn w x).shipped = s.shipped ∧ (s.setRn w x).house = s.house ∧
    (s.setRn w x).ports = s.ports ∧ (s.setRn w x).hall = s.hall ∧ (s.setRn w x).cfgGen = s.cfgGen ∧
    (s.setRn w x).bru = s.bru ∧ (s.setRn w x).sec = s.sec ∧ (s.setRn w x).secWin = s.secWin ∧
    (s.setRn w x).cal = s.cal ∧ (s.setRn w x).twn = s.twn ∧ (s.setRn w x).fltQ = s.fltQ ∧
    (s.setRn w x).fltHist = s.fltHist ∧ (s.setRn w x).fltDone = s.fltDone ∧ (s.setRn w x).fltLost = s.fltLost ∧
    (s.setRn w x).strikes = s.strikes ∧ (s.setRn w x).struck = s.struck ∧ (s.setRn w x).heat = s.heat ∧
    (s.setRn w x).gov = s.gov ∧ (s.setRn w x).sense = s.sense ∧ (s.setRn w x).age = s.age ∧
    (s.setRn w x).heldLow = s.heldLow ∧ (s.setRn w x).capHigh = s.capHigh ∧ (s.setRn w x).capFlt = s.capFlt ∧
    (s.setRn w x).untold = s.untold ∧ (s.setRn w x).sufinDown = s.sufinDown ∧ (s.setRn w x).heldEvents = s.heldEvents ∧
    (s.setRn w x).recovery = s.recovery ∧ (∀ z, (s.setRn w x).tile z = s.tile z) ∧ (∀ z, (s.setRn w x).part z = s.part z) ∧
    (∀ z, (s.setRn w x).region z = s.region z) ∧ (∀ z, (s.setRn w x).vif z = s.vif z) ∧ (∀ z, (s.setRn w x).row z = s.row z) ∧
    (∀ z, (s.setRn w x).handle z = s.handle z) ∧ (∀ z, (s.setRn w x).kv z = s.kv z) ∧ (∀ z, (s.setRn w x).port z = s.port z) ∧
    (∀ z j, (s.setRn w x).header z j = s.header z j) ∧ (∀ z j, (s.setRn w x).ring z j = s.ring z j) :=
  ⟨rfl, rfl, rfl, rfl, rfl, rfl, rfl, rfl, rfl, rfl, rfl, rfl, rfl, rfl, rfl, rfl, rfl, rfl, rfl, rfl, rfl, rfl, rfl, rfl, rfl, rfl, rfl, rfl, rfl, rfl, rfl, rfl, rfl, rfl, rfl, rfl, rfl, rfl, rfl, rfl, fun _ => rfl, fun _ => rfl, fun _ => rfl, fun _ => rfl, fun _ => rfl, fun _ => rfl, fun _ => rfl, fun _ => rfl, fun _ _ => rfl, fun _ _ => rfl⟩

@[simp] theorem State.setPort_frame (n : Nat) (x : LinkPort) :
    (s.setPort n x).pending = s.pending ∧ (s.setPort n x).free = s.free ∧ (s.setPort n x).tiles = s.tiles ∧
    (s.setPort n x).parts = s.parts ∧ (s.setPort n x).regions = s.regions ∧ (s.setPort n x).headers = s.headers ∧
    (s.setPort n x).vifs = s.vifs ∧ (s.setPort n x).host = s.host ∧ (s.setPort n x).rows = s.rows ∧
    (s.setPort n x).commits = s.commits ∧ (s.setPort n x).rings = s.rings ∧ (s.setPort n x).handles = s.handles ∧
    (s.setPort n x).kvp = s.kvp ∧ (s.setPort n x).shipped = s.shipped ∧ (s.setPort n x).rnd = s.rnd ∧
    (s.setPort n x).house = s.house ∧ (s.setPort n x).hall = s.hall ∧ (s.setPort n x).cfgGen = s.cfgGen ∧
    (s.setPort n x).bru = s.bru ∧ (s.setPort n x).sec = s.sec ∧ (s.setPort n x).secWin = s.secWin ∧
    (s.setPort n x).cal = s.cal ∧ (s.setPort n x).twn = s.twn ∧ (s.setPort n x).fltQ = s.fltQ ∧
    (s.setPort n x).fltHist = s.fltHist ∧ (s.setPort n x).fltDone = s.fltDone ∧ (s.setPort n x).fltLost = s.fltLost ∧
    (s.setPort n x).strikes = s.strikes ∧ (s.setPort n x).struck = s.struck ∧ (s.setPort n x).heat = s.heat ∧
    (s.setPort n x).gov = s.gov ∧ (s.setPort n x).sense = s.sense ∧ (s.setPort n x).age = s.age ∧
    (s.setPort n x).heldLow = s.heldLow ∧ (s.setPort n x).capHigh = s.capHigh ∧ (s.setPort n x).capFlt = s.capFlt ∧
    (s.setPort n x).untold = s.untold ∧ (s.setPort n x).sufinDown = s.sufinDown ∧ (s.setPort n x).heldEvents = s.heldEvents ∧
    (s.setPort n x).recovery = s.recovery ∧ (∀ z, (s.setPort n x).tile z = s.tile z) ∧ (∀ z, (s.setPort n x).part z = s.part z) ∧
    (∀ z, (s.setPort n x).region z = s.region z) ∧ (∀ z, (s.setPort n x).vif z = s.vif z) ∧ (∀ z, (s.setPort n x).row z = s.row z) ∧
    (∀ z, (s.setPort n x).handle z = s.handle z) ∧ (∀ z, (s.setPort n x).kv z = s.kv z) ∧ (∀ z, (s.setPort n x).rn z = s.rn z) ∧
    (∀ z j, (s.setPort n x).header z j = s.header z j) ∧ (∀ z j, (s.setPort n x).ring z j = s.ring z j) :=
  ⟨rfl, rfl, rfl, rfl, rfl, rfl, rfl, rfl, rfl, rfl, rfl, rfl, rfl, rfl, rfl, rfl, rfl, rfl, rfl, rfl, rfl, rfl, rfl, rfl, rfl, rfl, rfl, rfl, rfl, rfl, rfl, rfl, rfl, rfl, rfl, rfl, rfl, rfl, rfl, rfl, fun _ => rfl, fun _ => rfl, fun _ => rfl, fun _ => rfl, fun _ => rfl, fun _ => rfl, fun _ => rfl, fun _ => rfl, fun _ _ => rfl, fun _ _ => rfl⟩

@[simp] theorem State.setUnit_frame (u : Nat) (x : Heat) :
    (s.setUnit u x).pending = s.pending ∧ (s.setUnit u x).free = s.free ∧ (s.setUnit u x).tiles = s.tiles ∧
    (s.setUnit u x).parts = s.parts ∧ (s.setUnit u x).regions = s.regions ∧ (s.setUnit u x).headers = s.headers ∧
    (s.setUnit u x).vifs = s.vifs ∧ (s.setUnit u x).host = s.host ∧ (s.setUnit u x).rows = s.rows ∧
    (s.setUnit u x).commits = s.commits ∧ (s.setUnit u x).rings = s.rings ∧ (s.setUnit u x).handles = s.handles ∧
    (s.setUnit u x).kvp = s.kvp ∧ (s.setUnit u x).shipped = s.shipped ∧ (s.setUnit u x).rnd = s.rnd ∧
    (s.setUnit u x).house = s.house ∧ (s.setUnit u x).ports = s.ports ∧ (s.setUnit u x).hall = s.hall ∧
    (s.setUnit u x).cfgGen = s.cfgGen ∧ (s.setUnit u x).bru = s.bru ∧ (s.setUnit u x).sec = s.sec ∧
    (s.setUnit u x).secWin = s.secWin ∧ (s.setUnit u x).cal = s.cal ∧ (s.setUnit u x).twn = s.twn ∧
    (s.setUnit u x).fltQ = s.fltQ ∧ (s.setUnit u x).fltHist = s.fltHist ∧ (s.setUnit u x).fltDone = s.fltDone ∧
    (s.setUnit u x).fltLost = s.fltLost ∧ (s.setUnit u x).strikes = s.strikes ∧ (s.setUnit u x).struck = s.struck ∧
    (s.setUnit u x).gov = s.gov ∧ (s.setUnit u x).sense = s.sense ∧ (s.setUnit u x).age = s.age ∧
    (s.setUnit u x).heldLow = s.heldLow ∧ (s.setUnit u x).capHigh = s.capHigh ∧ (s.setUnit u x).capFlt = s.capFlt ∧
    (s.setUnit u x).untold = s.untold ∧ (s.setUnit u x).sufinDown = s.sufinDown ∧ (s.setUnit u x).heldEvents = s.heldEvents ∧
    (s.setUnit u x).recovery = s.recovery ∧ (∀ z, (s.setUnit u x).tile z = s.tile z) ∧ (∀ z, (s.setUnit u x).part z = s.part z) ∧
    (∀ z, (s.setUnit u x).region z = s.region z) ∧ (∀ z, (s.setUnit u x).vif z = s.vif z) ∧ (∀ z, (s.setUnit u x).row z = s.row z) ∧
    (∀ z, (s.setUnit u x).handle z = s.handle z) ∧ (∀ z, (s.setUnit u x).kv z = s.kv z) ∧ (∀ z, (s.setUnit u x).rn z = s.rn z) ∧
    (∀ z, (s.setUnit u x).port z = s.port z) ∧ (∀ z j, (s.setUnit u x).header z j = s.header z j) ∧ (∀ z j, (s.setUnit u x).ring z j = s.ring z j) :=
  ⟨rfl, rfl, rfl, rfl, rfl, rfl, rfl, rfl, rfl, rfl, rfl, rfl, rfl, rfl, rfl, rfl, rfl, rfl, rfl, rfl, rfl, rfl, rfl, rfl, rfl, rfl, rfl, rfl, rfl, rfl, rfl, rfl, rfl, rfl, rfl, rfl, rfl, rfl, rfl, rfl, fun _ => rfl, fun _ => rfl, fun _ => rfl, fun _ => rfl, fun _ => rfl, fun _ => rfl, fun _ => rfl, fun _ => rfl, fun _ => rfl, fun _ _ => rfl, fun _ _ => rfl⟩

@[simp] theorem State.setTwn_frame (w : Nat) (x : TwnWin) :
    (s.setTwn w x).pending = s.pending ∧ (s.setTwn w x).free = s.free ∧ (s.setTwn w x).tiles = s.tiles ∧
    (s.setTwn w x).parts = s.parts ∧ (s.setTwn w x).regions = s.regions ∧ (s.setTwn w x).headers = s.headers ∧
    (s.setTwn w x).vifs = s.vifs ∧ (s.setTwn w x).host = s.host ∧ (s.setTwn w x).rows = s.rows ∧
    (s.setTwn w x).commits = s.commits ∧ (s.setTwn w x).rings = s.rings ∧ (s.setTwn w x).handles = s.handles ∧
    (s.setTwn w x).kvp = s.kvp ∧ (s.setTwn w x).shipped = s.shipped ∧ (s.setTwn w x).rnd = s.rnd ∧
    (s.setTwn w x).house = s.house ∧ (s.setTwn w x).ports = s.ports ∧ (s.setTwn w x).hall = s.hall ∧
    (s.setTwn w x).cfgGen = s.cfgGen ∧ (s.setTwn w x).bru = s.bru ∧ (s.setTwn w x).sec = s.sec ∧
    (s.setTwn w x).secWin = s.secWin ∧ (s.setTwn w x).cal = s.cal ∧ (s.setTwn w x).fltQ = s.fltQ ∧
    (s.setTwn w x).fltHist = s.fltHist ∧ (s.setTwn w x).fltDone = s.fltDone ∧ (s.setTwn w x).fltLost = s.fltLost ∧
    (s.setTwn w x).strikes = s.strikes ∧ (s.setTwn w x).struck = s.struck ∧ (s.setTwn w x).heat = s.heat ∧
    (s.setTwn w x).gov = s.gov ∧ (s.setTwn w x).sense = s.sense ∧ (s.setTwn w x).age = s.age ∧
    (s.setTwn w x).heldLow = s.heldLow ∧ (s.setTwn w x).capHigh = s.capHigh ∧ (s.setTwn w x).capFlt = s.capFlt ∧
    (s.setTwn w x).untold = s.untold ∧ (s.setTwn w x).sufinDown = s.sufinDown ∧ (s.setTwn w x).heldEvents = s.heldEvents ∧
    (s.setTwn w x).recovery = s.recovery ∧ (∀ z, (s.setTwn w x).tile z = s.tile z) ∧ (∀ z, (s.setTwn w x).part z = s.part z) ∧
    (∀ z, (s.setTwn w x).region z = s.region z) ∧ (∀ z, (s.setTwn w x).vif z = s.vif z) ∧ (∀ z, (s.setTwn w x).row z = s.row z) ∧
    (∀ z, (s.setTwn w x).handle z = s.handle z) ∧ (∀ z, (s.setTwn w x).kv z = s.kv z) ∧ (∀ z, (s.setTwn w x).rn z = s.rn z) ∧
    (∀ z, (s.setTwn w x).port z = s.port z) ∧ (∀ z j, (s.setTwn w x).header z j = s.header z j) ∧ (∀ z j, (s.setTwn w x).ring z j = s.ring z j) :=
  ⟨rfl, rfl, rfl, rfl, rfl, rfl, rfl, rfl, rfl, rfl, rfl, rfl, rfl, rfl, rfl, rfl, rfl, rfl, rfl, rfl, rfl, rfl, rfl, rfl, rfl, rfl, rfl, rfl, rfl, rfl, rfl, rfl, rfl, rfl, rfl, rfl, rfl, rfl, rfl, rfl, fun _ => rfl, fun _ => rfl, fun _ => rfl, fun _ => rfl, fun _ => rfl, fun _ => rfl, fun _ => rfl, fun _ => rfl, fun _ => rfl, fun _ _ => rfl, fun _ _ => rfl⟩

@[simp] theorem State.setSecWin_frame (w : Nat) (x : SecWin) :
    (s.setSecWin w x).pending = s.pending ∧ (s.setSecWin w x).free = s.free ∧ (s.setSecWin w x).tiles = s.tiles ∧
    (s.setSecWin w x).parts = s.parts ∧ (s.setSecWin w x).regions = s.regions ∧ (s.setSecWin w x).headers = s.headers ∧
    (s.setSecWin w x).vifs = s.vifs ∧ (s.setSecWin w x).host = s.host ∧ (s.setSecWin w x).rows = s.rows ∧
    (s.setSecWin w x).commits = s.commits ∧ (s.setSecWin w x).rings = s.rings ∧ (s.setSecWin w x).handles = s.handles ∧
    (s.setSecWin w x).kvp = s.kvp ∧ (s.setSecWin w x).shipped = s.shipped ∧ (s.setSecWin w x).rnd = s.rnd ∧
    (s.setSecWin w x).house = s.house ∧ (s.setSecWin w x).ports = s.ports ∧ (s.setSecWin w x).hall = s.hall ∧
    (s.setSecWin w x).cfgGen = s.cfgGen ∧ (s.setSecWin w x).bru = s.bru ∧ (s.setSecWin w x).sec = s.sec ∧
    (s.setSecWin w x).cal = s.cal ∧ (s.setSecWin w x).twn = s.twn ∧ (s.setSecWin w x).fltQ = s.fltQ ∧
    (s.setSecWin w x).fltHist = s.fltHist ∧ (s.setSecWin w x).fltDone = s.fltDone ∧ (s.setSecWin w x).fltLost = s.fltLost ∧
    (s.setSecWin w x).strikes = s.strikes ∧ (s.setSecWin w x).struck = s.struck ∧ (s.setSecWin w x).heat = s.heat ∧
    (s.setSecWin w x).gov = s.gov ∧ (s.setSecWin w x).sense = s.sense ∧ (s.setSecWin w x).age = s.age ∧
    (s.setSecWin w x).heldLow = s.heldLow ∧ (s.setSecWin w x).capHigh = s.capHigh ∧ (s.setSecWin w x).capFlt = s.capFlt ∧
    (s.setSecWin w x).untold = s.untold ∧ (s.setSecWin w x).sufinDown = s.sufinDown ∧ (s.setSecWin w x).heldEvents = s.heldEvents ∧
    (s.setSecWin w x).recovery = s.recovery ∧ (∀ z, (s.setSecWin w x).tile z = s.tile z) ∧ (∀ z, (s.setSecWin w x).part z = s.part z) ∧
    (∀ z, (s.setSecWin w x).region z = s.region z) ∧ (∀ z, (s.setSecWin w x).vif z = s.vif z) ∧ (∀ z, (s.setSecWin w x).row z = s.row z) ∧
    (∀ z, (s.setSecWin w x).handle z = s.handle z) ∧ (∀ z, (s.setSecWin w x).kv z = s.kv z) ∧ (∀ z, (s.setSecWin w x).rn z = s.rn z) ∧
    (∀ z, (s.setSecWin w x).port z = s.port z) ∧ (∀ z j, (s.setSecWin w x).header z j = s.header z j) ∧ (∀ z j, (s.setSecWin w x).ring z j = s.ring z j) :=
  ⟨rfl, rfl, rfl, rfl, rfl, rfl, rfl, rfl, rfl, rfl, rfl, rfl, rfl, rfl, rfl, rfl, rfl, rfl, rfl, rfl, rfl, rfl, rfl, rfl, rfl, rfl, rfl, rfl, rfl, rfl, rfl, rfl, rfl, rfl, rfl, rfl, rfl, rfl, rfl, rfl, fun _ => rfl, fun _ => rfl, fun _ => rfl, fun _ => rfl, fun _ => rfl, fun _ => rfl, fun _ => rfl, fun _ => rfl, fun _ => rfl, fun _ _ => rfl, fun _ _ => rfl⟩

/-! ### Reading what was set -/

theorem tileKey_inj {t u : TileAddr} : tileKey t = tileKey u ↔ t = u := by
  constructor
  · intro h
    obtain ⟨⟨c, hc⟩, ⟨r, hr⟩⟩ := t
    obtain ⟨⟨d, hd⟩, ⟨q, hq⟩⟩ := u
    simp only [tileKey] at h
    have : c = d := by omega
    have : r = q := by omega
    subst_vars; rfl
  · intro h; rw [h]

/-- The tile an address word names is the one that it is the word of (R112). -/
theorem tileAt_tileKey (t : TileAddr) : tileAt (tileKey t) = some t := by
  obtain ⟨⟨c, hc⟩, ⟨r, hr⟩⟩ := t
  have h1 : (c * 512 + r) / 512 = c := by omega
  have h2 : (c * 512 + r) % 512 = r := by omega
  simp only [tileAt, tileKey, h1, h2, hc, hr, and_self, dite_true]

@[simp] theorem State.setTile_tile (t u : TileAddr) (x : Tile) : (s.setTile t x).tile u = if u = t then x else s.tile u := by
  simp only [State.tile, State.setTile, FMap.get_set, tileKey_inj]
@[simp] theorem State.mapTile_tile (t u : TileAddr) (g : Tile → Tile) :
    (s.mapTile t g).tile u = if u = t then g (s.tile u) else s.tile u := by
  simp only [State.mapTile, State.setTile_tile]; split <;> simp_all
@[simp] theorem State.setPart_part (p q : Nat) (x : Partition) : (s.setPart p x).part q = if q = p then x else s.part q := by
  simp only [State.part, State.setPart, FMap.get_set]
@[simp] theorem State.mapPart_part (p q : Nat) (g : Partition → Partition) :
    (s.mapPart p g).part q = if q = p then g (s.part q) else s.part q := by
  simp only [State.mapPart, State.setPart_part]; split <;> simp_all
@[simp] theorem State.setRegion_region (r q : Nat) (x : Region) : (s.setRegion r x).region q = if q = r then x else s.region q := by
  simp only [State.region, State.setRegion, FMap.get_set]
@[simp] theorem State.setVif_vif (n k : Nat) (x : Vif) : (s.setVif n x).vif k = if k = n then x else s.vif k := by
  simp only [State.vif, State.setVif, FMap.get_set]
@[simp] theorem State.setRow_row (r q : Nat) (x : Row) : (s.setRow r x).row q = if q = r then x else s.row q := by
  simp only [State.row, State.setRow, FMap.get_set]
@[simp] theorem State.setHandle_handle (h k : Nat) (x : Handle) : (s.setHandle h x).handle k = if k = h then x else s.handle k := by
  simp only [State.handle, State.setHandle, FMap.get_set]
@[simp] theorem State.setKv_kv (w k : Nat) (x : KvWin) : (s.setKv w x).kv k = if k = w then x else s.kv k := by
  simp only [State.kv, State.setKv, FMap.get_set]
@[simp] theorem State.setRn_rn (w k : Nat) (x : RndWin) : (s.setRn w x).rn k = if k = w then x else s.rn k := by
  simp only [State.rn, State.setRn, FMap.get_set]
@[simp] theorem State.setPort_port (n k : Nat) (x : LinkPort) : (s.setPort n x).port k = if k = n then x else s.port k := by
  simp only [State.port, State.setPort, FMap.get_set]

/-! ### Scalars, ranges, accumulators, counters and memory of a tile -/

variable (T : Tile)

/-- s0 reads as zero in every state (R48). -/
@[simp] theorem Tile.sreg_zero : T.sreg 0 = 0 := rfl
@[simp] theorem Tile.sreg_setSreg (n k : Nat) (v : Word) : (T.setSreg n v).sreg k = if k = n ∧ n ≠ 0 then v else T.sreg k := by
  unfold Tile.setSreg Tile.sreg
  by_cases hn : n = 0 <;> by_cases hk : k = 0 <;> by_cases e : k = n <;> simp_all
/-- Writing a scalar changes nothing else. -/
theorem Tile.setSreg_frame (n : Nat) (v : Word) : T.setSreg n v = { T with sregs := (T.setSreg n v).sregs } := by
  unfold Tile.setSreg; split <;> rfl
@[simp] theorem Tile.areg_setAreg (n k : Nat) (r : Range) : (T.setAreg n r).areg k = if k = n then r else T.areg k := by
  simp only [Tile.areg, Tile.setAreg, FMap.get_set]
@[simp] theorem Tile.acc_setAcc (n k : Nat) (x : Acc) : (T.setAcc n x).acc k = if k = n then x else T.acc k := by
  simp only [Tile.acc, Tile.setAcc, FMap.get_set]
@[simp] theorem Tile.counter_count (off k n : Nat) :
    (T.count off n).counter k = if k = off then satAdd32 (T.counter off) n else T.counter k := by
  simp only [Tile.counter, Tile.count, FMap.get_set]
/-- Counting changes the counters alone. -/
theorem Tile.count_frame (off n : Nat) : T.count off n = { T with ctr := (T.count off n).ctr } := rfl
/-- Keeping a peak changes the counters alone. -/
theorem Tile.peak_frame (off n : Nat) : T.peak off n = { T with ctr := (T.peak off n).ctr } := by
  unfold Tile.peak; split <;> rfl
@[simp] theorem Tile.counter_peak (off k n : Nat) (h : k ≠ off) : (T.peak off n).counter k = T.counter k := by
  unfold Tile.peak; split <;> simp [Tile.counter, h]

end Sys2Proof.Machine
end

