-- ==== Sys2Proof/Laws/Events.lean ====
section
/-! SUPPORT. What raising events leaves: EVT_STAT bits, the messages they send, and nothing else. -/
namespace Sys2Proof.Machine

/-- The key of a header names its window and page. -/
theorem State.setHeader_header (s : State) (w p v q : Nat) (x : Header) (hp : p < 65536) (hq : q < 65536) :
    (s.setHeader w p x).header v q = if v = w ∧ q = p then x else s.header v q := by
  simp only [State.setHeader, State.header, FMap.get_set]
  by_cases h : v = w ∧ q = p
  · rw [if_pos h, if_pos (by rw [h.1, h.2])]
  · rw [if_neg h, if_neg (by omega)]

theorem State.updateHeader_frame (s : State) (w p : Nat) (x : Header) :
    s.updateHeader w p x = { s with headers := (s.updateHeader w p x).headers, host := (s.updateHeader w p x).host } := by
  unfold State.updateHeader; split <;> rfl

theorem State.updateHeader_header (s : State) (w p v q : Nat) (x : Header) (hp : p < 65536) (hq : q < 65536) :
    (s.updateHeader w p x).header v q = if v = w ∧ q = p then x else s.header v q := by
  rw [← State.setHeader_header s w p v q x hp hq]
  unfold State.updateHeader; split <;> rfl

/-- An event changes headers and messages only. -/
theorem State.raiseIn_frame (s : State) (w p b : Nat) :
    s.raiseIn w p b = { s with headers := (s.raiseIn w p b).headers, host := (s.raiseIn w p b).host } :=
  State.updateHeader_frame ..

theorem Events.refl (s : State) : Events s s fun _ _ => 0 := fun v q _ => by simp

theorem Events.trans {a b c : State} {m n : Nat → Nat → Word} (h : Events a b m) (k : Events b c n) :
    Events a c (evts m n) := fun v q hq => by
  rw [k v q hq, h v q hq]; simp only [evts, BitVec.or_assoc]

theorem Events.of_header {a b : State} {m : Nat → Nat → Word} (h : ∀ v q, b.header v q = a.header v q) (k : ∀ v q, m v q = 0) :
    Events a b m := fun v q _ => by rw [h, k]; simp

theorem State.raiseIn_events (s : State) (w p b : Nat) (hp : p < 65536) : Events s (s.raiseIn w p b) (evt w p b) := by
  intro v q hq
  unfold State.raiseIn
  simp only [State.updateHeader_header s w p v q _ hp hq, evt]
  split
  · next h => rw [h.1, h.2]
  · simp

/-- Windows show the same pages after an event. -/
theorem pageShown_raiseIn (s : State) (w p b v q : Nat) : pageShown (s.raiseIn w p b) v q = pageShown s v q := by
  rw [State.raiseIn_frame]; rfl

theorem State.raise_events (s : State) (p b : Nat) (hp : p < 65536) :
    s.raise p b = { s with headers := (s.raise p b).headers, host := (s.raise p b).host } ∧
    Events s (s.raise p b) (evtAll s p b) := by
  have key : ∀ n, n ≤ 128 →
      let u := (List.range n).foldl (fun s w => if pageShown s w p then s.raiseIn w p b else s) s
      u = { s with headers := u.headers, host := u.host } ∧
      Events s u fun v q => if q = p ∧ v < n ∧ pageShown s v p = true then BitVec.ofNat 32 (2 ^ b) else 0 := by
    intro n
    induction n with
    | zero => intro _; exact ⟨rfl, Events.of_header (fun _ _ => rfl) fun _ _ => by simp⟩
    | succ n ih =>
      intro hn
      obtain ⟨hf, he⟩ := ih (by omega)
      simp only [List.range_succ, List.foldl_append, List.foldl_cons, List.foldl_nil]
      generalize (List.range n).foldl (fun s w => if pageShown s w p then s.raiseIn w p b else s) s = u at hf he
      have hs : ∀ v, pageShown u v p = pageShown s v p := fun v => by rw [hf]; rfl
      rw [hs]
      split
      · next hw =>
        refine ⟨by rw [State.raiseIn_frame, hf], ?_⟩
        intro v q hq
        rw [(he.trans (State.raiseIn_events u n p b hp)) v q hq]
        simp only [evts, evt]
        by_cases h1 : q = p <;> by_cases h2 : v = n
        · subst h1 h2; simp [hw]
        · by_cases h3 : v < n
          · simp [h1, h2, h3, Nat.lt_succ_of_lt h3]
          · simp [h1, h2, h3, show ¬ v < n + 1 by omega]
        · simp [h1]
        · simp [h1]
      · next hw =>
        refine ⟨hf, ?_⟩
        intro v q hq
        rw [he v q hq]
        by_cases h2 : v = n
        · subst h2; simp [hw]
        · by_cases h3 : v < n
          · simp [h3, Nat.lt_succ_of_lt h3]
          · simp [h3, show ¬ v < n + 1 by omega]
  exact key 128 (Nat.le_refl _)

end Sys2Proof.Machine
end

