-- ==== Sys2Proof/WellFormed.lean ====
section
/-! DEFINITION. When a command is well formed: each operand fits the bytes, bits or range that the spec gives it. The machine runs a
command whether or not it is well formed; these are the commands that hardware or host can form. -/
namespace Sys2Proof

/-! ### Parts -/

/-- A value of n bytes. -/
def fits (n v : Nat) : Bool := decide (v < 2 ^ (8 * n))

/-- A speculative message (Table 8.15). -/
def SpecMsg.wf (m : SpecMsg) : Bool :=
  decide (m.k ≤ 8) && fits 2 m.mainRow && fits 2 m.draftRow && fits 4 m.b && decide (m.tokens.length ≤ 9)

/-- A ship message (Table 9.7, R325). -/
def ShipMsg.wf (m : ShipMsg) : Bool :=
  fits 1 m.kind && fits 1 m.fmt && fits 2 m.destRow && fits 4 m.k && fits 2 m.layer && fits 1 m.fill && decide (m.destPart < 16) &&
  fits 2 m.srcRow && fits 4 m.promptLen

/-- A ship acknowledgement (R325). -/
def ShipAck.wf (a : ShipAck) : Bool := fits 2 a.row && fits 4 a.k && fits 2 a.layer && fits 1 a.status

/-- A manifest in the host's memory: RND_CMD_LEN says how many bytes it has (R333, R360). -/
def ManifestFile.wf (m : ManifestFile) : Bool := fits 4 m.bytes.length

/-- A build image in the host's memory: RND_CMD_LEN says how many bytes it has (R244, R360). -/
def ImageFile.wf (m : ImageFile) : Bool := fits 4 m.bytes.length

/-- A time cell's depth and port (Table 11.3, R370). -/
def TimeMsg.wf (m : TimeMsg) : Bool := fits 1 m.depth && decide (m.port < 48)

/-- An enrolment command of an op: 256 bytes that begin with it (Table 14.5). -/
def EnrolCmd.wf (op : Byte) (c : EnrolCmd) : Bool := c.bytes.length == 256 && c.bytes.head? == some op

/-- A shard's bytes (Table 10.2). -/
def shardBytesOk (n : Nat) : Bool := decide (1 ≤ n) && decide (n ≤ 67108864)

/-- One reading of each region and stack (R435). -/
def GovReading.wf (g : GovReading) : Bool := (g.regions.map (·.1)).Nodup && (g.stackTemps.map (·.1)).Nodup

/-! ### Commands -/

/-- Well-formed commands: byte, bit and range limits of their operands. -/
def Instr.wf (i : Instr) : Bool :=
  match i with
  | .specReq _ m => m.wf
  | .specProp _ m => m.wf && decide (m.tokens.length ≤ 8)
  | .specEnd _ m => m.wf
  | .shipMessageRx _ m => m.wf
  | .shipAckRx _ a => a.wf
  | .promptCopyDone _ ok toks => ok || toks.isEmpty
  | .loadImage _ img => img.wf
  | .loadGen _ m => m.wf
  | .loadAdapter _ m => m.wf
  | .shardReceived _ _ bytes => shardBytesOk bytes.length
  | .conversionDone code => decide (-32768 ≤ code) && decide (code ≤ 32767)
  | .governorTick g => g.wf
  | .wearUpdate ts => (ts.map (·.1)).Nodup
  | .timeCellRx _ m => m.wf
  | .enrol _ c => EnrolCmd.wf 1 c
  | .revoke _ c => EnrolCmd.wf 2 c
  | .release _ c => EnrolCmd.wf 3 c
  | .registerWrite _ _ wide _ be => wide || be.extractLsb' 4 4 == 0
  | _ => true

/-! ### Who acts (INVENTORY.md, Agents) -/

/-- The tile that a command acts at. -/
def Instr.tile? (i : Instr) : Option TileAddr :=
  match i with
  | .nop x _ => some x
  | .jmp x _ => some x
  | .brc x _ => some x
  | .call x _ => some x
  | .ret x _ => some x
  | .loop x _ => some x
  | .halt x _ => some x
  | .stepwait x _ => some x
  | .sets x _ => some x
  | .adds x _ => some x
  | .subs x _ => some x
  | .ands x _ => some x
  | .ors x _ => some x
  | .shls x _ => some x
  | .cmps x _ => some x
  | .movs x _ => some x
  | .ldc x _ => some x
  | .stc x _ => some x
  | .waita x _ => some x
  | .clra x _ => some x
  | .wake x _ => some x
  | .sleep x _ => some x
  | .spin x _ => some x
  | .bara x _ => some x
  | .barw x _ => some x
  | .holdreq x _ => some x
  | .fence x _ => some x
  | .dload x _ => some x
  | .dstore x _ => some x
  | .dlatch x _ => some x
  | .send x _ => some x
  | .win x _ => some x
  | .cred x _ => some x
  | .copy x _ => some x
  | .desc x _ => some x
  | .take x _ => some x
  | .plat x _ => some x
  | .flushp x _ => some x
  | .matv x _ => some x
  | .matm x _ => some x
  | .accz x _ => some x
  | .accout x _ => some x
  | .kdot x _ => some x
  | .vacc x _ => some x
  | .adapt x _ => some x
  | .qact x _ => some x
  | .cvt x _ => some x
  | .vadd x _ => some x
  | .vsub x _ => some x
  | .vmul x _ => some x
  | .vfma x _ => some x
  | .vmax x _ => some x
  | .vsel x _ => some x
  | .vexp x _ => some x
  | .vrcp x _ => some x
  | .vrsq x _ => some x
  | .vsumx x _ => some x
  | .smax x _ => some x
  | .topk x _ => some x
  | .sample x _ => some x
  | .issueDue x => some x
  | .columnReadLine v _ => some v.tile
  | .readRetry x _ => some x
  | .columnWriteLine v => some v.tile
  | .forcedGrant x _ => some x
  | .refreshDue c => some c.tile
  | .refreshRepay c => some c.tile
  | .refreshBurstDone c => some c.tile
  | .rowEngineLine v => some v.tile
  | .vectorGroupDone v => some v.tile
  | .sendInject v => some v.tile
  | .mgmtInject x => some x
  | .flitHop x _ => some x
  | .sendHeadArrival x _ => some x
  | .payloadDelivery v _ => some v.tile
  | .creditDelivery x => some x
  | .wakeDelivery x => some x
  | .stepNoticeDelivery x => some x
  | .descriptorDelivery x _ => some x
  | .holdRootMaximum _ x _ => some x
  | .holdMaxArrival x _ => some x
  | .holdreqEnd x => some x
  | .sleepLimitExpire x => some x
  | .partitionStartArrival x => some x
  | .sequencerAccessDone v => some v.tile
  | _ => none

/-- The window that a command is written in, or whose page it serves. -/
def Instr.window? (i : Instr) : Option WinId :=
  match i with
  | .rowClaim x _ _ => some x
  | .rowReleaseUnsubmitted x _ _ => some x
  | .rowCommit x _ _ => some x
  | .rowWithdraw x _ _ => some x
  | .rowCancel x _ _ => some x
  | .rowRelease x _ _ => some x
  | .streamEnable x _ _ => some x
  | .create x => some x
  | .retire x => some x
  | .park x => some x
  | .kvRecall x => some x
  | .loadImage x _ => some x
  | .loadGen x _ => some x
  | .loadAdapter x _ => some x
  | .retireAdapter x => some x
  | .abort x => some x
  | .shardReceived x _ _ => some x
  | .shardHashed x _ _ => some x
  | .shardStall x _ => some x
  | .retrain x _ => some x
  | .slotDataWrite x _ _ => some x
  | .busMasterEnable x => some x.fn
  | .functionLevelReset x => some x
  | .restart x _ => some x
  | .force x _ => some x
  | .warm x => some x.win
  | .clearField x => some x
  | .enrol x _ => some x
  | .revoke x _ => some x
  | .release x _ => some x
  | .attest x => some x
  | .fwWrite x _ => some x
  | .certRead x => some x
  | .save x => some x.win
  | .restore x => some x
  | .calUserWrite x _ => some x
  | .read x => some x.win
  | .writeCtrl x => some x
  | .ctrClear x _ => some x
  | .errClear x _ => some x
  | .cfgApply x _ => some x
  | .evtForce x _ _ => some x
  | .evtStatClear x _ _ => some x
  | .rwsShadowWrite x _ _ => some x
  | .registerWrite x _ _ _ _ => some x
  | .lowWordReadCapture x _ => some x
  | .fltRecordRead x _ => some x
  | .streamHoldoffExpire x _ => some x
  | .loadChecksDone x => some x
  | .shardReadError x _ => some x
  | .vectorUnmask x _ => some x
  | _ => none

/-- The partition that a command acts for, where it is neither a tile's nor a window's. -/
def Instr.part? (i : Instr) : Option PartId :=
  match i with
  | .outboundSend x => some x
  | .barrierRootUpdate x _ => some x
  | .stepBoundary x => some x
  | .idleBoundary x => some x
  | .manifestSend x => some x
  | .stepCredit x => some x
  | .retireCredit x => some x
  | .tokenNotice x => some x
  | .pageFullNotice x => some x
  | .tableWriteAck x => some x
  | .specReq x _ => some x
  | .specProp x _ => some x
  | .specEnd x _ => some x
  | .shipMessageRx x _ => some x
  | .shipAckRx x _ => some x
  | .shipRetry x _ => some x
  | .badgerVisit x _ _ _ _ _ => some x
  | .scrubRepair x => some x
  | .purgeEnd x => some x
  | .quarantineEnd x _ => some x
  | _ => none

end Sys2Proof
end

