-- ==== Sys2Proof/Laws/PerInstr.lean ====
section
/-! SUPPORT. One lemma per command of the family `Sender`: who acts. -/
namespace Sys2Proof.Laws.Sender

/-- A command acts at one tile, in one window, or for one partition, and never for two of these. -/
def Statement (i : Sys2Proof.Instr) : Prop :=
  (i.tile?.isSome → i.window? = none ∧ i.part? = none) ∧ (i.window?.isSome → i.part? = none)

theorem ofTile {i : Sys2Proof.Instr} (h : i.window? = none) (h' : i.part? = none) : Statement i :=
  ⟨fun _ => ⟨h, h'⟩, fun _ => h'⟩

theorem ofWindow {i : Sys2Proof.Instr} (h : i.tile? = none) (h' : i.part? = none) : Statement i :=
  ⟨fun k => absurd k (by simp [h]), fun _ => h'⟩

theorem ofRest {i : Sys2Proof.Instr} (h : i.tile? = none) (h' : i.window? = none) : Statement i :=
  ⟨fun k => absurd k (by simp [h]), fun k => absurd k (by simp [h'])⟩

theorem nop (t : TileAddr) (f : FmtC) : Statement (.nop t f) := ofTile rfl rfl
theorem jmp (t : TileAddr) (f : FmtC) : Statement (.jmp t f) := ofTile rfl rfl
theorem brc (t : TileAddr) (f : FmtC) : Statement (.brc t f) := ofTile rfl rfl
theorem call (t : TileAddr) (f : FmtC) : Statement (.call t f) := ofTile rfl rfl
theorem ret (t : TileAddr) (f : FmtC) : Statement (.ret t f) := ofTile rfl rfl
theorem loop (t : TileAddr) (f : FmtC) : Statement (.loop t f) := ofTile rfl rfl
theorem halt (t : TileAddr) (f : FmtC) : Statement (.halt t f) := ofTile rfl rfl
theorem stepwait (t : TileAddr) (f : FmtA) : Statement (.stepwait t f) := ofTile rfl rfl
theorem sets (t : TileAddr) (f : FmtC) : Statement (.sets t f) := ofTile rfl rfl
theorem adds (t : TileAddr) (f : FmtC) : Statement (.adds t f) := ofTile rfl rfl
theorem subs (t : TileAddr) (f : FmtC) : Statement (.subs t f) := ofTile rfl rfl
theorem ands (t : TileAddr) (f : FmtC) : Statement (.ands t f) := ofTile rfl rfl
theorem ors (t : TileAddr) (f : FmtC) : Statement (.ors t f) := ofTile rfl rfl
theorem shls (t : TileAddr) (f : FmtC) : Statement (.shls t f) := ofTile rfl rfl
theorem cmps (t : TileAddr) (f : FmtC) : Statement (.cmps t f) := ofTile rfl rfl
theorem movs (t : TileAddr) (f : FmtC) : Statement (.movs t f) := ofTile rfl rfl
theorem ldc (t : TileAddr) (f : FmtC) : Statement (.ldc t f) := ofTile rfl rfl
theorem stc (t : TileAddr) (f : FmtC) : Statement (.stc t f) := ofTile rfl rfl
theorem waita (t : TileAddr) (f : FmtC) : Statement (.waita t f) := ofTile rfl rfl
theorem clra (t : TileAddr) (f : FmtC) : Statement (.clra t f) := ofTile rfl rfl
theorem wake (t : TileAddr) (f : FmtC) : Statement (.wake t f) := ofTile rfl rfl
theorem sleep (t : TileAddr) (f : FmtC) : Statement (.sleep t f) := ofTile rfl rfl
theorem spin (t : TileAddr) (f : FmtC) : Statement (.spin t f) := ofTile rfl rfl
theorem bara (t : TileAddr) (f : FmtC) : Statement (.bara t f) := ofTile rfl rfl
theorem barw (t : TileAddr) (f : FmtC) : Statement (.barw t f) := ofTile rfl rfl
theorem holdreq (t : TileAddr) (f : FmtC) : Statement (.holdreq t f) := ofTile rfl rfl
theorem fence (t : TileAddr) (f : FmtC) : Statement (.fence t f) := ofTile rfl rfl
theorem dload (t : TileAddr) (f : FmtA) : Statement (.dload t f) := ofTile rfl rfl
theorem dstore (t : TileAddr) (f : FmtA) : Statement (.dstore t f) := ofTile rfl rfl
theorem dlatch (t : TileAddr) (f : FmtA) : Statement (.dlatch t f) := ofTile rfl rfl
theorem send (t : TileAddr) (f : FmtA) : Statement (.send t f) := ofTile rfl rfl
theorem win (t : TileAddr) (f : FmtA) : Statement (.win t f) := ofTile rfl rfl
theorem cred (t : TileAddr) (f : FmtA) : Statement (.cred t f) := ofTile rfl rfl
theorem copy (t : TileAddr) (f : FmtA) : Statement (.copy t f) := ofTile rfl rfl
theorem desc (t : TileAddr) (f : FmtA) : Statement (.desc t f) := ofTile rfl rfl
theorem take (t : TileAddr) (f : FmtA) : Statement (.take t f) := ofTile rfl rfl
theorem plat (t : TileAddr) (f : FmtA) : Statement (.plat t f) := ofTile rfl rfl
theorem flushp (t : TileAddr) (f : FmtA) : Statement (.flushp t f) := ofTile rfl rfl
theorem matv (t : TileAddr) (f : FmtA) : Statement (.matv t f) := ofTile rfl rfl
theorem matm (t : TileAddr) (f : FmtA) : Statement (.matm t f) := ofTile rfl rfl
theorem accz (t : TileAddr) (f : FmtA) : Statement (.accz t f) := ofTile rfl rfl
theorem accout (t : TileAddr) (f : FmtA) : Statement (.accout t f) := ofTile rfl rfl
theorem kdot (t : TileAddr) (f : FmtA) : Statement (.kdot t f) := ofTile rfl rfl
theorem vacc (t : TileAddr) (f : FmtA) : Statement (.vacc t f) := ofTile rfl rfl
theorem adapt (t : TileAddr) (f : FmtA) : Statement (.adapt t f) := ofTile rfl rfl
theorem qact (t : TileAddr) (f : FmtA) : Statement (.qact t f) := ofTile rfl rfl
theorem cvt (t : TileAddr) (f : FmtA) : Statement (.cvt t f) := ofTile rfl rfl
theorem vadd (t : TileAddr) (f : FmtA) : Statement (.vadd t f) := ofTile rfl rfl
theorem vsub (t : TileAddr) (f : FmtA) : Statement (.vsub t f) := ofTile rfl rfl
theorem vmul (t : TileAddr) (f : FmtA) : Statement (.vmul t f) := ofTile rfl rfl
theorem vfma (t : TileAddr) (f : FmtA) : Statement (.vfma t f) := ofTile rfl rfl
theorem vmax (t : TileAddr) (f : FmtA) : Statement (.vmax t f) := ofTile rfl rfl
theorem vsel (t : TileAddr) (f : FmtA) : Statement (.vsel t f) := ofTile rfl rfl
theorem vexp (t : TileAddr) (f : FmtA) : Statement (.vexp t f) := ofTile rfl rfl
theorem vrcp (t : TileAddr) (f : FmtA) : Statement (.vrcp t f) := ofTile rfl rfl
theorem vrsq (t : TileAddr) (f : FmtA) : Statement (.vrsq t f) := ofTile rfl rfl
theorem vsumx (t : TileAddr) (f : FmtA) : Statement (.vsumx t f) := ofTile rfl rfl
theorem smax (t : TileAddr) (f : FmtA) : Statement (.smax t f) := ofTile rfl rfl
theorem topk (t : TileAddr) (f : FmtA) : Statement (.topk t f) := ofTile rfl rfl
theorem sample (t : TileAddr) (f : FmtA) : Statement (.sample t f) := ofTile rfl rfl
theorem issueDue (t : TileAddr) : Statement (.issueDue t) := ofTile rfl rfl
theorem columnReadLine (v : Visit) (low : Bool) : Statement (.columnReadLine v low) := ofTile rfl rfl
theorem readRetry (t : TileAddr) (r : Retry) : Statement (.readRetry t r) := ofTile rfl rfl
theorem columnWriteLine (v : Visit) : Statement (.columnWriteLine v) := ofTile rfl rfl
theorem forcedGrant (t : TileAddr) (bank : Option BankGrant) : Statement (.forcedGrant t bank) := ofTile rfl rfl
theorem refreshDue (c : ColumnOf) : Statement (.refreshDue c) := ofTile rfl rfl
theorem refreshRepay (c : ColumnOf) : Statement (.refreshRepay c) := ofTile rfl rfl
theorem refreshBurstDone (c : ColumnOf) : Statement (.refreshBurstDone c) := ofTile rfl rfl
theorem rowEngineLine (v : Visit) : Statement (.rowEngineLine v) := ofTile rfl rfl
theorem vectorGroupDone (v : Visit) : Statement (.vectorGroupDone v) := ofTile rfl rfl
theorem sendInject (v : Visit) : Statement (.sendInject v) := ofTile rfl rfl
theorem mgmtInject (t : TileAddr) : Statement (.mgmtInject t) := ofTile rfl rfl
theorem flitHop (t : TileAddr) (out : Port) : Statement (.flitHop t out) := ofTile rfl rfl
theorem sendHeadArrival (t : TileAddr) (c : Chan) : Statement (.sendHeadArrival t c) := ofTile rfl rfl
theorem payloadDelivery (v : Visit) (c : Chan) : Statement (.payloadDelivery v c) := ofTile rfl rfl
theorem creditDelivery (t : TileAddr) : Statement (.creditDelivery t) := ofTile rfl rfl
theorem wakeDelivery (t : TileAddr) : Statement (.wakeDelivery t) := ofTile rfl rfl
theorem stepNoticeDelivery (t : TileAddr) : Statement (.stepNoticeDelivery t) := ofTile rfl rfl
theorem descriptorDelivery (t : TileAddr) (c : Chan) : Statement (.descriptorDelivery t c) := ofTile rfl rfl
theorem outboundSend (p : PartId) : Statement (.outboundSend p) := ofRest rfl rfl
theorem holdRootMaximum (p : PartId) (t : TileAddr) (l : Word) : Statement (.holdRootMaximum p t l) := ofTile rfl rfl
theorem holdMaxArrival (t : TileAddr) (m : Word) : Statement (.holdMaxArrival t m) := ofTile rfl rfl
theorem holdreqEnd (t : TileAddr) : Statement (.holdreqEnd t) := ofTile rfl rfl
theorem barrierRootUpdate (p : PartId) (b : Fin 32) : Statement (.barrierRootUpdate p b) := ofRest rfl rfl
theorem stagerStep (r : RegionId) : Statement (.stagerStep r) := ofRest rfl rfl
theorem sleepLimitExpire (t : TileAddr) : Statement (.sleepLimitExpire t) := ofTile rfl rfl
theorem partitionStartArrival (t : TileAddr) : Statement (.partitionStartArrival t) := ofTile rfl rfl
theorem stepBoundary (p : PartId) : Statement (.stepBoundary p) := ofRest rfl rfl
theorem idleBoundary (p : PartId) : Statement (.idleBoundary p) := ofRest rfl rfl
theorem manifestSend (p : PartId) : Statement (.manifestSend p) := ofRest rfl rfl
theorem stepCredit (p : PartId) : Statement (.stepCredit p) := ofRest rfl rfl
theorem retireCredit (p : PartId) : Statement (.retireCredit p) := ofRest rfl rfl
theorem tokenNotice (p : PartId) : Statement (.tokenNotice p) := ofRest rfl rfl
theorem streamRecordWrite (r : RowId) : Statement (.streamRecordWrite r) := ofRest rfl rfl
theorem pageFullNotice (p : PartId) : Statement (.pageFullNotice p) := ofRest rfl rfl
theorem tableWriteAck (p : PartId) : Statement (.tableWriteAck p) := ofRest rfl rfl
theorem promptCopyDone (r : RowId) (ok : Bool) (toks : List Word) : Statement (.promptCopyDone r ok toks) := ofRest rfl rfl
theorem deadlineMiss (r : RowId) : Statement (.deadlineMiss r) := ofRest rfl rfl
theorem rowOverdue (r : RowId) : Statement (.rowOverdue r) := ofRest rfl rfl
theorem rowClaim (w : WinId) (r : RowId) (gen : BitVec 16) : Statement (.rowClaim w r gen) := ofWindow rfl rfl
theorem rowReleaseUnsubmitted (w : WinId) (r : RowId) (gen : BitVec 16) : Statement (.rowReleaseUnsubmitted w r gen) := ofWindow rfl rfl
theorem rowCommit (w : WinId) (r : RowId) (gen : BitVec 16) : Statement (.rowCommit w r gen) := ofWindow rfl rfl
theorem rowWithdraw (w : WinId) (r : RowId) (gen : BitVec 16) : Statement (.rowWithdraw w r gen) := ofWindow rfl rfl
theorem rowCancel (w : WinId) (r : RowId) (gen : BitVec 16) : Statement (.rowCancel w r gen) := ofWindow rfl rfl
theorem rowRelease (w : WinId) (r : RowId) (gen : BitVec 16) : Statement (.rowRelease w r gen) := ofWindow rfl rfl
theorem specReq (p : PartId) (m : SpecMsg) : Statement (.specReq p m) := ofRest rfl rfl
theorem specProp (p : PartId) (m : SpecMsg) : Statement (.specProp p m) := ofRest rfl rfl
theorem specEnd (p : PartId) (m : SpecMsg) : Statement (.specEnd p m) := ofRest rfl rfl
theorem specTimeout (r : RowId) : Statement (.specTimeout r) := ofRest rfl rfl
theorem streamEnable (w : WinId) (k : Fin 32) (v : Word) : Statement (.streamEnable w k v) := ofWindow rfl rfl
theorem create (w : WinId) : Statement (.create w) := ofWindow rfl rfl
theorem retire (w : WinId) : Statement (.retire w) := ofWindow rfl rfl
theorem park (w : WinId) : Statement (.park w) := ofWindow rfl rfl
theorem kvRecall (w : WinId) : Statement (.kvRecall w) := ofWindow rfl rfl
theorem shipMessageRx (p : PartId) (m : ShipMsg) : Statement (.shipMessageRx p m) := ofRest rfl rfl
theorem shipAckRx (p : PartId) (a : ShipAck) : Statement (.shipAckRx p a) := ofRest rfl rfl
theorem shipRetry (p : PartId) (i : Nat) : Statement (.shipRetry p i) := ofRest rfl rfl
theorem loadImage (w : WinId) (img : ImageFile) : Statement (.loadImage w img) := ofWindow rfl rfl
theorem loadGen (w : WinId) (m : ManifestFile) : Statement (.loadGen w m) := ofWindow rfl rfl
theorem loadAdapter (w : WinId) (m : ManifestFile) : Statement (.loadAdapter w m) := ofWindow rfl rfl
theorem retireAdapter (w : WinId) : Statement (.retireAdapter w) := ofWindow rfl rfl
theorem abort (w : WinId) : Statement (.abort w) := ofWindow rfl rfl
theorem shardReceived (w : WinId) (i : Nat) (bytes : List Byte) : Statement (.shardReceived w i bytes) := ofWindow rfl rfl
theorem shardHashed (w : WinId) (i : Nat) (k : Fin 64) : Statement (.shardHashed w i k) := ofWindow rfl rfl
theorem shardStall (w : WinId) (i : Nat) : Statement (.shardStall w i) := ofWindow rfl rfl
theorem badgerVisit (p : PartId) (slot : Option (Fin 1024)) (copy : Bool) (shard : Nat) (k m : Fin 64) : Statement (.badgerVisit p slot copy shard k m) := ofRest rfl rfl
theorem scrubRepair (p : PartId) : Statement (.scrubRepair p) := ofRest rfl rfl
theorem scrubLogWrite : Statement .scrubLogWrite := ofRest rfl rfl
theorem slotOpen (n : PortId) : Statement (.slotOpen n) := ofRest rfl rfl
theorem linkCellRx (n : PortId) (frame : BitVec 16) (slot : Fin 1024) (idx : Fin 128) (raw : BitVec 704) (spoiled : CellNote) (fec : Byte) :
    Statement (.linkCellRx n frame slot idx raw spoiled fec) := ofRest rfl rfl
theorem nakRx (n : PortId) (frame : BitVec 16) (slot : Fin 1024) (idx : Fin 128) : Statement (.nakRx n frame slot idx) := ofRest rfl rfl
theorem timeCellRx (n : PortId) (m : TimeMsg) : Statement (.timeCellRx n m) := ofRest rfl rfl
theorem thruExpire (n : PortId) : Statement (.thruExpire n) := ofRest rfl rfl
theorem slotTableSwap (n : PortId) : Statement (.slotTableSwap n) := ofRest rfl rfl
theorem linkTrained (n : PortId) (peerHall : BitVec 16) (peerPort : PortId) : Statement (.linkTrained n peerHall peerPort) := ofRest rfl rfl
theorem linkLockLost (n : PortId) (lane : Fin 8) : Statement (.linkLockLost n lane) := ofRest rfl rfl
theorem linkSignalLost (n : PortId) : Statement (.linkSignalLost n) := ofRest rfl rfl
theorem retrain (w : WinId) (n : PortId) : Statement (.retrain w n) := ofWindow rfl rfl
theorem slotDataWrite (w : WinId) (n : PortId) (v : Word) : Statement (.slotDataWrite w n v) := ofWindow rfl rfl
theorem hallEpochEdge : Statement .hallEpochEdge := ofRest rfl rfl
theorem hallRefLock : Statement .hallRefLock := ofRest rfl rfl
theorem hallRefLost : Statement .hallRefLost := ofRest rfl rfl
theorem holdoverExpire : Statement .holdoverExpire := ofRest rfl rfl
theorem hostDown (why : HostLoss) : Statement (.hostDown why) := ofRest rfl rfl
theorem perstRelease (speed : Fin 8) (width : BitVec 4) (flit : Bool) : Statement (.perstRelease speed width flit) := ofRest rfl rfl
theorem busMasterEnable (w : ConfigWrite) : Statement (.busMasterEnable w) := ofWindow rfl rfl
theorem functionLevelReset (w : WinId) : Statement (.functionLevelReset w) := ofWindow rfl rfl
theorem errorEvent (e : ErrEvent) : Statement (.errorEvent e) := ofRest rfl rfl
theorem recoveryStart : Statement .recoveryStart := ofRest rfl rfl
theorem purgeEnd (p : PartId) : Statement (.purgeEnd p) := ofRest rfl rfl
theorem restart (w : WinId) (p : PartId) : Statement (.restart w p) := ofWindow rfl rfl
theorem fuseTrip (r : RegionId) : Statement (.fuseTrip r) := ofRest rfl rfl
theorem clockFeedStop (r : FeedStop) : Statement (.clockFeedStop r) := ofRest rfl rfl
theorem sufinReset : Statement .sufinReset := ofRest rfl rfl
theorem signalBoxReset : Statement .signalBoxReset := ofRest rfl rfl
theorem roundhouseReset : Statement .roundhouseReset := ofRest rfl rfl
theorem stackOut (k : StackId) (parked : Bool) : Statement (.stackOut k parked) := ofRest rfl rfl
theorem governorTick (g : GovReading) : Statement (.governorTick g) := ofRest rfl rfl
theorem fastLimit (watts : Nat) : Statement (.fastLimit watts) := ofRest rfl rfl
theorem dutyWindow (first : PartId) : Statement (.dutyWindow first) := ofRest rfl rfl
theorem capRecompute : Statement .capRecompute := ofRest rfl rfl
theorem busbarLost (busB : Bool) : Statement (.busbarLost busB) := ofRest rfl rfl
theorem busbarVoltageFault (v : VoltFault) : Statement (.busbarVoltageFault v) := ofRest rfl rfl
theorem wearUpdate (ts : List (Fin 145 × WearTerms)) : Statement (.wearUpdate ts) := ofRest rfl rfl
theorem sampleInEdge (rising : Bool) : Statement (.sampleInEdge rising) := ofRest rfl rfl
theorem scanTimer : Statement .scanTimer := ofRest rfl rfl
theorem force (w : WinId) (v : Word) : Statement (.force w v) := ofWindow rfl rfl
theorem conversionDone (code : Int) : Statement (.conversionDone code) := ofRest rfl rfl
theorem coldBringup (bootAlt calSigOk : Bool) : Statement (.coldBringup bootAlt calSigOk) := ofRest rfl rfl
theorem moduleReset : Statement .moduleReset := ofRest rfl rfl
theorem ringTest (ring : Fin 6) (fails : List TestFail) : Statement (.ringTest ring fails) := ofRest rfl rfl
theorem bringupDone : Statement .bringupDone := ofRest rfl rfl
theorem warm (w : WarmReq) : Statement (.warm w) := ofWindow rfl rfl
theorem warmDone (fails : List TestFail) : Statement (.warmDone fails) := ofRest rfl rfl
theorem clearField (w : WinId) : Statement (.clearField w) := ofWindow rfl rfl
theorem enrol (w : WinId) (c : EnrolCmd) : Statement (.enrol w c) := ofWindow rfl rfl
theorem revoke (w : WinId) (c : EnrolCmd) : Statement (.revoke w c) := ofWindow rfl rfl
theorem release (w : WinId) (c : EnrolCmd) : Statement (.release w c) := ofWindow rfl rfl
theorem attest (w : WinId) : Statement (.attest w) := ofWindow rfl rfl
theorem fwWrite (w : WinId) (fw : FwImage) : Statement (.fwWrite w fw) := ofWindow rfl rfl
theorem certRead (w : WinId) : Statement (.certRead w) := ofWindow rfl rfl
theorem save (w : SaveReq) : Statement (.save w) := ofWindow rfl rfl
theorem restore (w : WinId) : Statement (.restore w) := ofWindow rfl rfl
theorem calUserWrite (w : WinId) (v : Word) : Statement (.calUserWrite w v) := ofWindow rfl rfl
theorem read (w : ReadReq) : Statement (.read w) := ofWindow rfl rfl
theorem writeCtrl (w : WinId) : Statement (.writeCtrl w) := ofWindow rfl rfl
theorem ctrClear (w : WinId) (page : BitVec 16) : Statement (.ctrClear w page) := ofWindow rfl rfl
theorem errClear (w : WinId) (page : BitVec 16) : Statement (.errClear w page) := ofWindow rfl rfl
theorem cfgApply (w : WinId) (page : BitVec 16) : Statement (.cfgApply w page) := ofWindow rfl rfl
theorem evtForce (w : WinId) (page : BitVec 16) (v : Word) : Statement (.evtForce w page v) := ofWindow rfl rfl
theorem evtStatClear (w : WinId) (page : BitVec 16) (v : Word) : Statement (.evtStatClear w page v) := ofWindow rfl rfl
theorem rwsShadowWrite (w : WinId) (off : BitVec 28) (v : Word) : Statement (.rwsShadowWrite w off v) := ofWindow rfl rfl
theorem registerWrite (w : WinId) (off : BitVec 28) (wide : Bool) (v : DWord) (be : BitVec 8) : Statement (.registerWrite w off wide v be) := ofWindow rfl rfl
theorem lowWordReadCapture (w : WinId) (r : RegRead) : Statement (.lowWordReadCapture w r) := ofWindow rfl rfl
theorem fltRecordRead (w : WinId) (r : RegRead) : Statement (.fltRecordRead w r) := ofWindow rfl rfl
theorem streamHoldoffExpire (w : WinId) (k : Fin 32) : Statement (.streamHoldoffExpire w k) := ofWindow rfl rfl
theorem quarantineEnd (p : PartId) (bad : List RegionId) : Statement (.quarantineEnd p bad) := ofRest rfl rfl
theorem loadChecksDone (w : WinId) : Statement (.loadChecksDone w) := ofWindow rfl rfl
theorem peerLeavesElectricalIdle (n : PortId) : Statement (.peerLeavesElectricalIdle n) := ofRest rfl rfl
theorem hostLinkActive (speed : Fin 8) (width : BitVec 4) (flit : Bool) : Statement (.hostLinkActive speed width flit) := ofRest rfl rfl
theorem busbarRestored (busB : Bool) : Statement (.busbarRestored busB) := ofRest rfl rfl
theorem shardReadError (w : WinId) (i : Nat) : Statement (.shardReadError w i) := ofWindow rfl rfl
theorem sequencerAccessDone (v : Visit) : Statement (.sequencerAccessDone v) := ofTile rfl rfl
theorem sufinReturn : Statement .sufinReturn := ofRest rfl rfl
theorem vectorUnmask (fn : WinId) (vec : VectorWrite) : Statement (.vectorUnmask fn vec) := ofWindow rfl rfl

end Sys2Proof.Laws.Sender
end

