-- ==== Sys2Proof/Laws/Sequencer.lean ====
section
/-! SUPPORT. What one clk at the check stage does, once for every tile instruction. -/
namespace Sys2Proof.Machine

variable {s : State} {t : TileAddr} {w : DWord} {p : IssueSpec} {eff : State → State}

/-- A word that does not wait at the check stage changes nothing. -/
theorem seqStep_absent (h : atCheck s t w = false) : seqStep s t w p eff = s := by simp [seqStep, h]

/-- A stall sets the waiting cause alone. -/
theorem seqStep_stall {r : Wait} (h : atCheck s t w = true) (hv : verdict (s.tile t) w p = .stall r) :
    seqStep s t w p eff = s.mapTile t fun T => { T with wait := r } := by simp [seqStep, h, hv]

/-- A failed check is a tile fault. -/
theorem seqStep_fault {c d : Nat} (h : atCheck s t w = true) (hv : verdict (s.tile t) w p = .fault c d) :
    seqStep s t w p eff = tileFault s t c d false := by simp [seqStep, h, hv]

/-- An instruction that passes does its work on the state after its issue. -/
theorem seqStep_runs (h : Runs s t w p) :
    seqStep s t w p eff = eff (s.setTile t (issued (s.tile t) (s.partOf t).exact p)) := by
  obtain ⟨h1, h2, h3⟩ := h
  have h4 : (nextPc (s.tile t) p).2.isNone = false := by
    cases hn : (nextPc (s.tile t) p).2 <;> simp_all
  simp [seqStep, h1, h2, issueWith, h4]

/-- The last clk of a program that runs off the store: the work is done, then SEQ_FAULT (R113). -/
theorem seqStep_off (h : atCheck s t w = true) (hv : verdict (s.tile t) w p = .issue)
    (hn : (nextPc (s.tile t) p).2 = none) (hs : p.stops = false) :
    seqStep s t w p eff = tileFault (eff (s.setTile t (issued (s.tile t) (s.partOf t).exact p))) t codeSeq 0 false := by
  simp [seqStep, h, hv, issueWith, hn, hs]

/-- `B` with what an issue from `T` does to it beside the effect. -/
def issuedOver (T : Tile) (exact : Bool) (p : IssueSpec) (B : Tile) : Tile :=
  let I := issued T exact p
  { B with pc := I.pc, loops := I.loops, nextId := I.nextId, wait := I.wait, slip := I.slip, due := I.due, ctr := I.ctr }

theorem Tile.peak_fields (T : Tile) (off n : Nat) :
    (T.peak off n).pc = T.pc ∧ (T.peak off n).loops = T.loops ∧ (T.peak off n).nextId = T.nextId ∧
    (T.peak off n).wait = T.wait ∧ (T.peak off n).slip = T.slip ∧ (T.peak off n).due = T.due := by
  unfold Tile.peak; split <;> exact ⟨rfl, rfl, rfl, rfl, rfl, rfl⟩

/-- What an issue sets in the sequencer. -/
theorem issued_fields (T : Tile) (exact : Bool) (p : IssueSpec) :
    (issued T exact p).pc = (nextPc T p).2.getD T.pc ∧ (issued T exact p).loops = (nextPc T p).1 ∧
    (issued T exact p).nextId = T.nextId + 1 ∧ (issued T exact p).wait = .none ∧ (issued T exact p).slip = false := by
  simp [issued, Tile.peak_fields]

theorem issued_eq (T : Tile) (exact : Bool) (p : IssueSpec) :
    issued T exact p = issuedOver T exact p (match p.entry with
      | some c => T.withEntry p c
      | none => T) := by
  unfold issuedOver issued
  simp only [Tile.peak_fields]
  cases hp : p.entry with
  | none => exact Tile.peak_frame _ _ _
  | some c => exact Tile.peak_frame _ _ _

theorem issuedOver_moved {T B : Tile} {exact : Bool} {p : IssueSpec} (h : B.ctr = T.ctr) :
    Moved p T B (issuedOver T exact p B) := by
  constructor
  · unfold issuedOver
    simp only [issued_fields]
  · intro off ho
    simp only [issuedOver, Tile.counter, issued, h]
    exact Tile.counter_peak _ _ _ _ ho

/-- The tile after an issue, before the instruction's own effect. -/
def entered (T : Tile) (p : IssueSpec) : Tile :=
  match p.entry with
  | some c => T.withEntry p c
  | none => T

/-- An instruction whose effect is a change of its tile issues as `B` when the change takes the issued tile to `B` issued. -/
theorem runs_mapTile {g : Tile → Tile} {B E : Tile} (h : Runs s t w p) (hE : entered (s.tile t) p = E)
    (hg : g (issuedOver (s.tile t) (s.partOf t).exact p E) = issuedOver (s.tile t) (s.partOf t).exact p B)
    (hc : B.ctr = (s.tile t).ctr) :
    OnlyTile t s (seqStep s t w p fun s => s.mapTile t g) ∧
    Moved p (s.tile t) B ((seqStep s t w p fun s => s.mapTile t g).tile t) := by
  rw [seqStep_runs h]
  refine ⟨⟨rfl, fun v hv => by simp [hv]⟩, ?_⟩
  subst hE
  simp only [State.mapTile_tile, State.setTile_tile, if_true]
  rw [issued_eq]
  exact hg ▸ issuedOver_moved hc

/-- An instruction without an effect of its own issues as the tile it is. -/
theorem runs_id (h : Runs s t w p) (he : p.entry = none) :
    OnlyTile t s (seqStep s t w p id) ∧ Moved p (s.tile t) (s.tile t) ((seqStep s t w p id).tile t) := by
  rw [seqStep_runs h]
  refine ⟨⟨rfl, fun v hv => by simp [hv]⟩, ?_⟩
  simp only [id, State.setTile_tile, if_true]
  rw [issued_eq, he]
  exact issuedOver_moved rfl

/-! ### What a passed check says -/

/-- An instruction that passes met no fault, holds its resource and has a legal word. -/
theorem verdict_issue {T : Tile} (h : verdict T w p = .issue) : p.fault = none ∧ p.own = .none ∧ wordLegal w = true := by
  revert h; unfold verdict; repeat' split
  all_goals simp_all

theorem firstFlt_none {l : List Flt} : firstFlt l = none ↔ ∀ x ∈ l, x = none := by
  induction l with
  | nil => simp [firstFlt]
  | cons a l ih => cases a <;> simp [firstFlt, ih]

@[simp] theorem rangeUnless_none {c : Bool} {k : Nat} : rangeUnless c k = none ↔ c = true := by simp [rangeUnless]
@[simp] theorem illegalUnless_none {c : Bool} : illegalUnless c = none ↔ c = true := by simp [illegalUnless]

/-- An accepted target names a tile of the partition (R112). -/
theorem targetFlt_none {v : Word} : targetFlt s t v = none ↔ ∃ u, tileAt v.toNat = some u ∧ samePart s t u = true := by
  unfold targetFlt
  split
  · next u h => simp [h]
  · next h => simp [h]

end Sys2Proof.Machine
end

