-- ==== Sys2Proof/Tests/Slice0.lean ====
section
/-! SUPPORT. Tests: ill-formed commands that the check refuses, words written out from the encodings of the spec, single steps on small
states, and for every statement with hypotheses states and operands that meet them. -/
namespace Sys2Proof.Tests
open Sys2Proof Sys2Proof.Machine

/-! ### Small states -/

/-- The tile at column 0, row 0, and its eastern neighbour. -/
def t00 : TileAddr := ⟨0, 0⟩
def t10 : TileAddr := ⟨1, 0⟩

/-- A scratchpad, column or accumulator range. -/
def pad (base len : BitVec 14) : Range := { space := 0, len := len, base := base }
def col (base len : BitVec 14) : Range := { space := 1, len := len, base := base }
def accR (base len : BitVec 14) : Range := { space := 2, len := len, base := base }

def zeros (n : Nat) : List Byte := List.replicate n 0

/-- A running tile of partition 0 with one word of program: a4–a6 and a11–a13 are triples of one and of two blocks, a7 and a8 a weight
pair, a9 and a10 accumulators; s1 has bit 31 set, s2 is 5. -/
def benchTile (w : DWord) : Tile :=
  { Tile.reset with
    part := some 0, inService := true, halted := false, prog := [w]
    sregs := [(1, 0x80000000), (2, 5)]
    aregs := [(0, pad 300 1), (1, pad 0 2), (2, pad 64 2), (3, pad 16 1), (4, pad 100 1), (5, pad 101 1), (6, pad 102 4), (7, col 0 1),
              (8, col 1 1), (9, accR 0 64), (10, accR 64 32), (11, pad 110 2), (12, pad 112 1), (13, pad 113 4), (14, pad 200 34),
              (15, pad 240 32)]
    credit := [(0, 1)] }

/-- One tile of a running partition. -/
def oneTile (T : Tile) : State := { State.reset with tiles := [(0, T)], parts := [(0, { running := true })] }
def bench (w : DWord) : State := oneTile (benchTile w)

/-- A format C and a format A instruction. -/
def fC (sfx : BitVec 4) (sd sa : BitVec 5) (i : Bool) (imm : Word) : FmtC :=
  { sfx := sfx, sd := sd, sa := sa, sb := 0, i := i, res := 0, imm := imm }
def fA (sfx : BitVec 4) (ad as_ at_ : BitVec 4) (sx sy : BitVec 5) (idx : BitVec 6) (imm : BitVec 24) : FmtA :=
  { sfx := sfx, ad := ad, as_ := as_, at_ := at_, sx := sx, sy := sy, idx := idx, imm := imm }

/-- A format C or format A instruction of opcode `op` passes the check stage of the bench tile. -/
abbrev runsC (op : BitVec 8) (f : FmtC) (g : Tile → Tile) (p : Tile → IssueSpec) : Prop :=
  let T := g (benchTile (f.word op))
  Runs (oneTile T) t00 (f.word op) (p T)
abbrev runsA (op : BitVec 8) (f : FmtA) (g : Tile → Tile) (p : State → Tile → IssueSpec) : Prop :=
  let T := g (benchTile (f.word op))
  Runs (oneTile T) t00 (f.word op) (p (oneTile T) T)

/-! ### Witnesses: the check stage and the tile instructions -/

theorem witness_StepRunsTheFrontCommand :
    ({ State.reset with pending := [.sufinReset] } : State).pending = .sufinReset :: [] ∧ State.reset.pending = [] := by decide

theorem witness_IdleClkCountsTime :
    (State.reset.pending = [] ∧ State.reset.hall.slew = 0 ∧ FMap.wf Tile.reset State.reset.tiles = true) ∧
    (let s : State := { oneTile (benchTile 0) with regions := [(0, { inService := true, gap := 1, exits := [t00] })], parts := [] }
     s.pending = [] ∧ (s.region 0).inService = true ∧ (s.region 1).inService = false ∧ (s.part 0).running = false ∧
     s.clocksStopped = false ∧ t10 ∉ (s.region 0).exits ∧ t10 ∉ (s.region 0).entries) ∧
    ({ State.reset with gov := { shutdown := true } } : State).clocksStopped = true ∧
    ({ State.reset with bru := { phase := 5 } } : State).clocksStopped = true := by decide

theorem witness_TheCheckStage :
    (let f := fC 0 0 0 false 0
     -- no program word there; a halted tile
     (Instr.nop t00 f).tileWord = some (t00, f.word 0) ∧
     atCheck (oneTile { benchTile 0 with halted := true }) t00 (f.word 0) = false ∧
     ready (oneTile { benchTile 0 with halted := true }) t00 = false ∧
     atCheck (bench (1 : DWord)) t00 (f.word 0) = false ∧ ready (bench (1 : DWord)) t00 = true ∧ (decodeWord t00 1).isSome = true) ∧
    (let f := fC 0 1 2 true 1
     let T := { benchTile (f.word 9) with pend := [2] }
     atCheck (oneTile T) t00 (f.word 9) = true ∧ verdict T (f.word 9) (specOf (oneTile T) t00 (.adds t00 f)) = .stall .scalar) ∧
    (let f := fC 0 0 0 false 0
     atCheck (bench (f.word 5)) t00 (f.word 5) = true ∧
     verdict (benchTile (f.word 5)) (f.word 5) (specOf (bench (f.word 5)) t00 (.ret t00 f)) = .fault 2 0) := by decide

theorem witness_NextIndex :
    (let T := { benchTile 0 with pc := 2047, loops := [{ start := 1, stop := 2047, left := 2 }] }
     (nextPc T {}).2 = some 1 ∧ T.loops.head?.map (·.stop) = some T.pc) ∧
    (let f := fC 0 0 0 false 0
     let T := { benchTile 0 with pc := 2047, prog := [] }
     atCheck (oneTile T) t00 (f.word 0) = true ∧ verdict T (f.word 0) (specOf (oneTile T) t00 (.nop t00 f)) = .issue ∧
     (nextPc T (specOf (oneTile T) t00 (.nop t00 f))).2 = none ∧ (specOf (oneTile T) t00 (.nop t00 f)).stops = false) := by decide

theorem witness_ScalarsAndRegisters :
    runsC 0x08 (fC 0 31 0 false 7) id (fun _ => {}) ∧ runsC 0x08 (fC 1 15 0 false 7) id (fun _ => {}) ∧
    (∀ op ∈ [(0x09 : BitVec 8), 0x0A, 0x0B, 0x0C], runsC op (fC 0 0 31 true 7) id (fun _ => specAlu (fC 0 0 31 true 7))) ∧
    (∀ x ∈ [(0 : BitVec 4), 1, 2], runsC 0x0D (fC x 3 2 true 31) id (fun _ => specAlu (fC x 3 2 true 31))) ∧
    (∀ x ∈ [(0 : BitVec 4), 1, 2, 3, 4, 5], runsC 0x0E (fC x 3 2 true 31) id (fun _ => specAlu (fC x 3 2 true 31))) ∧
    (∀ x ∈ [(0 : BitVec 4), 1, 2, 3, 4, 5, 6, 7], runsC 0x0F (fC x 3 2 false 0) id (fun _ => specMovs (fC x 3 2 false 0))) := by decide

theorem witness_ControlFlow :
    runsC 0x00 (fC 0 0 0 false 0) id (fun _ => {}) ∧ runsC 0x01 (fC 0 0 0 false 2047) id (fun _ => specJmp (fC 0 0 0 false 2047)) ∧
    (runsC 0x02 (fC 0 0 0 false 4) id (fun T => specBrc T (fC 0 0 0 false 4)) ∧ brcTaken 0 0 = true) ∧
    (runsC 0x02 (fC 2 0 2 false 4) id (fun T => specBrc T (fC 2 0 2 false 4)) ∧ brcTaken 2 5 = false) ∧
    runsC 0x04 (fC 0 0 0 false 9) (fun T => { T with rets := List.replicate 7 0 }) (fun T => specCall T (fC 0 0 0 false 9)) ∧
    runsC 0x05 (fC 0 0 0 false 0) (fun T => { T with rets := [2047] }) specRet ∧
    (runsC 0x03 (fC 0 0 0 true 5) id (fun T => specLoop T (fC 0 0 0 true 5)) ∧ loopCount (benchTile 0) (fC 0 0 0 true 5) = 0) ∧
    (runsC 0x03 (fC 0 0 0 true 0x20005) id (fun T => specLoop T (fC 0 0 0 true 0x20005)) ∧
      loopCount (benchTile 0) (fC 0 0 0 true 0x20005) = 2) := by decide

theorem witness_SequencerMemory :
    runsC 0x10 (fC 0 3 0 false 0) id (fun T => specLdc T (fC 0 3 0 false 0)) ∧
    runsC 0x10 (fC 1 3 0 false 0x5FFFC) id (fun T => specLdc T (fC 1 3 0 false 0x5FFFC)) ∧
    runsC 0x11 (fC 0 0 2 false 3) id (fun T => specStc T (fC 0 0 2 false 3)) ∧
    runsC 0x11 (fC 0 0 2 false 0x2F) id (fun T => specStc T (fC 0 0 2 false 0x2F)) ∧
    runsC 0x11 (fC 1 0 0 false 0x5FFFC) id (fun T => specStc T (fC 1 0 0 false 0x5FFFC)) := by decide

theorem witness_HaltAndStepwait :
    runsC 0x06 (fC 0 0 0 false 0) id specHalt ∧
    runsA 0x07 (fA 0 1 0 0 3 0 0 0) (fun T => { T with mailbox := [(1, 2)] }) (fun _ T => specStepwait T (fA 0 1 0 0 3 0 0 0)) := by
  decide

theorem witness_WaitsWakesAndSleep :
    runsC 0x20 (fC 0 0 0 true 0) id (fun T => specWaita T (fC 0 0 0 true 0)) ∧
    runsC 0x21 (fC 15 0 0 false 0) id (fun T => specClra T (fC 15 0 0 false 0)) ∧
    runsC 0x28 (fC 0 0 0 false 0) id (fun T => specFence T (fC 0 0 0 false 0)) ∧
    (let f := fC 5 0 0 false 0
     Runs (bench (f.word 0x22)) t00 (f.word 0x22) (specWake (bench (f.word 0x22)) t00 f)) ∧
    runsC 0x23 (fC 0 3 0 true 1) (fun T => { T with wakeLatch := 1 }) (fun T => specSleep T (fC 0 3 0 true 1)) ∧
    runsC 0x23 (fC 0 3 0 true 1) id (fun T => specSleep T (fC 0 3 0 true 1)) ∧
    runsC 0x24 (fC 0 3 0 true 0) id (fun _ => specSpin (fC 0 3 0 true 0)) ∧
    runsC 0x24 (fC 0 3 0 true 1) id (fun _ => specSpin (fC 0 3 0 true 1)) := by decide

theorem witness_BarriersAndHoldreq :
    runsC 0x25 (fC 0 0 0 false 31) (fun T => { T with barMember := 0x80000000 }) (fun T => specBara T (fC 0 0 0 false 31)) ∧
    (let f := fC 0 0 0 false 31
     let T := { benchTile (f.word 0x26) with barPend := 0x80000000, barMember := 0x80000000 }
     Runs (oneTile T) t00 (f.word 0x26) (specBarw (oneTile T) t00 f)) ∧
    (runsC 0x27 (fC 0 0 0 true 0) id (fun _ => { needs := src2Needs (fC 0 0 0 true 0) }) ∧ holdreqClk (benchTile 0) (fC 0 0 0 true 0) = 0) ∧
    (runsC 0x27 (fC 0 0 0 true 65535) id (fun _ => { needs := src2Needs (fC 0 0 0 true 65535) }) ∧
      holdreqClk (benchTile 0) (fC 0 0 0 true 65535) ≠ 0) := by decide

theorem witness_MemoryMovesEnterTheirQueues :
    runsA 0x40 (fA 0 15 7 0 0 0 0 0) id (fun _ T => specDload T (fA 0 15 7 0 0 0 0 0)) ∧
    runsA 0x41 (fA 0 7 15 0 0 0 0 0) id (fun _ T => specDstore T (fA 0 7 15 0 0 0 0 0)) ∧
    runsA 0x42 (fA 0 0 7 0 0 0 0 0) id (fun _ T => specDlatch T (fA 0 0 7 0 0 0 0 0)) ∧
    runsA 0x63 (fA 1 7 14 0 2 0 0 0xFFF) id (fun _ T => specFlushp T (fA 1 7 14 0 2 0 0 0xFFF)) ∧
    runsA 0x46 (fA 0 1 2 0 0 0 0 0) id (fun _ T => specCopy T (fA 0 1 2 0 0 0 0 0)) := by decide

theorem witness_SendsAndTakes :
    runsA 0x43 (fA 1 0 1 0 0 0 0 0) id (fun s _ => specSend s t00 (fA 1 0 1 0 0 0 0 0)) ∧
    runsA 0x43 (fA 2 0 1 0 0 0 0 0) id (fun s _ => specSend s t00 (fA 2 0 1 0 0 0 0 0)) ∧
    runsA 0x43 (fA 4 0 1 0 0 0 0 0) id (fun s _ => specSend s t00 (fA 4 0 1 0 0 0 0 0)) ∧
    runsA 0x60 (fA 0 0 15 0 0 0 0 0) id (fun s _ => specDesc s t00 (fA 0 0 15 0 0 0 0 0)) ∧
    runsA 0x61 (fA 0 0 0 0 3 0 0 0) (fun T => { T with descQ := [7] }) (fun _ T => specTake T (fA 0 0 0 0 3 0 0 0)) := by decide

theorem witness_WindowsAndCredits :
    runsA 0x44 (fA 0 1 0 0 0 0 15 64) id (fun _ T => specWin T (fA 0 1 0 0 0 0 15 64)) ∧
    runsA 0x44 (fA 1 0 0 0 0 0 15 0) id (fun _ T => specWin T (fA 1 0 0 0 0 0 15 0)) ∧
    runsA 0x45 (fA 0 0 0 0 0 0 15 255) id (fun s _ => specCred s t00 (fA 0 0 0 0 0 0 15 255)) ∧
    runsA 0x45 (fA 1 0 0 0 0 0 0 0xF001) (fun T => { T with wins := [(15, { opened := true, range := pad 0 2, expected := 64 })] })
      (fun s _ => specCred s t00 (fA 1 0 0 0 0 0 0 0xF001)) := by decide

theorem witness_RowEngineInstructionsEnter :
    runsA 0x80 (fA 0 9 7 4 0 0 0 0) id (fun _ T => specMat T (fA 0 9 7 4 0 0 0 0) false) ∧
    runsA 0x81 (fA 0 9 7 4 0 0 0 1) id (fun _ T => specMat T (fA 0 9 7 4 0 0 0 1) true) ∧
    runsA 0x81 (fA 8 9 0 4 0 0 0 1) id (fun _ T => specMat T (fA 8 9 0 4 0 0 0 1) true) ∧
    runsA 0x84 (fA 0 9 7 4 0 0 0 1) id (fun _ T => specKdot T (fA 0 9 7 4 0 0 0 1)) ∧
    runsA 0x84 (fA 2 9 14 4 0 0 0 1) id (fun _ T => specKdot T (fA 2 9 14 4 0 0 0 1)) ∧
    runsA 0x85 (fA 0 10 7 11 0 0 0 1) id (fun _ T => specVacc T (fA 0 10 7 11 0 0 0 1)) ∧
    (runsA 0x86 (fA 0 9 7 4 0 1 0 0) id (fun _ T => specAdapt T (fA 0 9 7 4 0 1 0 0)) ∧ ((benchTile 0).sreg 1).getLsbD 31 = true) ∧
    (runsA 0x86 (fA 0 9 7 4 0 0 0 5) id (fun _ T => specAdapt T (fA 0 9 7 4 0 0 0 5)) ∧ ((benchTile 0).sreg 0).getLsbD 31 = false) := by
  decide

theorem witness_VectorInstructionsEnter :
    runsA 0x82 (fA 0 9 0 0 0 0 0 0) id (fun _ T => specAccz T (fA 0 9 0 0 0 0 0 0)) ∧
    runsA 0x83 (fA 0 6 9 0 0 0 0 0) id (fun _ T => specAccout T (fA 0 6 9 0 0 0 0 0)) ∧
    runsA 0xA0 (fA 0 4 1 0 0 0 0 0) id (fun _ T => specQact T (fA 0 4 1 0 0 0 0 0)) ∧
    runsA 0xA1 (fA 0 6 1 0 0 0 8 0) id (fun _ T => specCvt T (fA 0 6 1 0 0 0 8 0)) ∧
    runsA 0xAA (fA 0 9 1 0 0 0 0 0) id (fun _ T => specVsumx T (fA 0 9 1 0 0 0 0 0)) ∧
    runsA 0xAC (fA 0 1 2 0 0 0 0 0) id (fun _ T => specSmax T (fA 0 1 2 0 0 0 0 0)) ∧
    runsA 0xAE (fA 0 0 1 2 0 0 0 4) id (fun _ T => specTopk T (fA 0 0 1 2 0 0 0 4)) ∧
    runsA 0xAD (fA 0 0 1 2 0 0 0 0) id (fun _ T => specSample T (fA 0 0 1 2 0 0 0 0)) ∧
    runsA 0x62 (fA 0 14 1 0 0 0 0 0) id (fun _ T => specPlat T (fA 0 14 1 0 0 0 0 0)) ∧
    (∀ op ∈ [(0xA2 : BitVec 8), 0xA3, 0xA4], runsA op (fA 0 1 2 1 0 0 0 0) id (fun _ T => specElement T (fA 0 1 2 1 0 0 0 0) false)) ∧
    runsA 0xA5 (fA 0 1 2 1 0 0 0 0) id (fun _ T => specElement T (fA 0 1 2 1 0 0 0 0) true) ∧
    runsA 0xA6 (fA 0 1 2 1 0 0 0 0) id (fun _ T => specVmax T (fA 0 1 2 1 0 0 0 0)) ∧
    runsA 0xA6 (fA 8 0 1 0 0 0 0 0) id (fun _ T => specVmax T (fA 8 0 1 0 0 0 0 0)) ∧
    runsA 0xAB (fA 0 1 2 1 0 0 0 0) id (fun _ T => specElement T (fA 0 1 2 1 0 0 0 0) true) ∧
    (∀ op ∈ [(0xA7 : BitVec 8), 0xA8, 0xA9], runsA op (fA 0 1 2 0 0 0 0 0) id (fun _ T => specUnary T (fA 0 1 2 0 0 0 0 0))) := by decide

theorem witness_DueInstructionThatStallsSlips :
    (let T := { benchTile ((fC 0 0 0 true 5).word 0x20) with due := 0 }
     let s : State := { oneTile T with parts := [(0, { running := true, exact := true })] }
     T.part = some 0 ∧ (s.part 0).exact = true ∧ ready s t00 = true ∧ T.slip = false ∧
     waitingVerdict s t00 = .stall .other) := by decide

/-! ### Witnesses: the column, arithmetic and the fabric -/

theorem witness_LinesReachTheirConsumers :
    (∀ x ∈ [((.pad 0 true : ReadUse), [(8191 : Nat)]), (.pad 0x2FDC false, [0, 1]), (.latch, [0]), (.rowEngine, [0, 8191])],
      ∀ n ∈ [0, 2], let T := { benchTile 0 with readQ := [{ id := 3, lines := x.2, use := x.1, started := n }] }
      ((oneTile T).tile t00).readQ = [{ id := 3, lines := x.2, use := x.1, started := n }] ∧ x.2 ≠ [] ∧
      T.portFree = true ∧ held (oneTile T) t00 = false ∧ T.inOrder 3 = true) ∧
    (let T := { benchTile 0 with readQ := [{ id := 3, lines := [0], use := .latch }], maxIn := 1 }
     held (oneTile T) t00 = true ∧ { T with refreshing := true }.portFree = false) ∧
    (let T := { benchTile 0 with readQ := [{ id := 3, lines := [0], use := .pad 0 false }], seqAcc := [.storeWord 2 0 7] }
     T.inOrder 3 = false) ∧ (benchTile 0).readQ = [] := by decide

theorem witness_StoredLinesWriteTheirBytes :
    ∀ o ∈ [({ id := 1, line := 8191, left := 1, granule := 0, side := true, flush := false } : WriteOp),
           { id := 1, line := 0, left := 2, granule := 0, side := false, flush := false },
           { id := 1, line := 8191, left := 1, granule := 0, side := true, flush := true, notice := some (8191, 4095) }],
      ∀ w ∈ [none, some Writing.queue], let n : Flit := { src := .tile t00, dst := t10, rim := true, body := .due 1 }
      let T := { benchTile 0 with writeQ := [o], writing := w, mgmtQ := [n] }
      T.writeQ = o :: [] ∧ T.portFree = w.isNone ∧ T.readWaiting = 0 ∧ held (oneTile T) t00 = false ∧ T.inOrder o.id = true ∧
      (∀ g ∈ (benchTile 0).mgmtQ, g.body ≠ .due o.id) ∧ T.mgmtQ = [] ++ n :: [] ∧ n.body = .due o.id := by
  decide

theorem witness_StoredLinesWait :
    (let T := benchTile 0
     T.writing = none ∧ { T with refreshing := true }.portFree = false ∧ held (oneTile { T with maxIn := 1 }) t00 = true ∧
     T.frontWrite false = false ∧ T.lowWaits = false) ∧
    (let T := { benchTile 0 with readQ := [{ id := 1, lines := [0], use := .latch }], low := [{ level := 5, line := 0, data := {} }] }
     T.frontWrite false = false ∧ T.highWaits = true) := by decide

/-- A tile of region 0 whose burst is due now. -/
def dueState (T : Tile) (n : Nat) : State := { oneTile T with regions := [(0, { inService := true, refresh := n, starts := 48 })] }

theorem witness_RetriesGrantsAndRefresh :
    ({ benchTile 0 with readQ := [{ id := 1, lines := [0], use := .latch }] } : Tile).readQ ≠ [] ∧
    (let T := { benchTile 0 with starve := 1024, low := [{ level := 5, line := 0, data := {} }] }
     T.portFree = true ∧ held (oneTile T) t00 = false ∧ (∃ a ∈ T.low, 2 ≤ a.level ∧ a.level ≤ 5) ∧ 1024 ≤ T.starve) ∧
    (let T := { benchTile 0 with
       bankStarve := [(15, 1024)], writeQ := [{ id := 1, line := 0, left := 1, granule := 0, side := true, flush := true }] }
     T.flushWaits = true ∧ 1024 ≤ FMap.get 0 T.bankStarve 15) ∧
    ((State.reset.region (regionOf t00)).inService = false ∧ ((dueState (benchTile 0) 0).region (regionOf t00)).inService = true) ∧
    (∀ T ∈ [{ benchTile 0 with refreshing := true }, { benchTile 0 with writing := some .queue }],
      dueNow ((dueState T 0).region (regionOf t00)) t00 = true ∧ (T.refreshing = true ∨ T.writing ≠ none) ∧ T.readQ = []) ∧
    (let R : Region := { inService := true, refresh := 0, starts := 49 }
     dueNow R t00 = true ∧ 49 ≤ R.starts) ∧
    (let T := { benchTile 0 with readQ := [{ id := 1, lines := [0], use := .latch }], owed := 3 }
     dueNow ((dueState T 0).region (regionOf t00)) t00 = true ∧ T.refreshing = false ∧ T.writing = none ∧ T.readQ ≠ [] ∧
       T.owed < T.deferMax) ∧
    (let T := { benchTile 0 with readQ := [{ id := 1, lines := [0], use := .latch }], owed := 4 }
     dueNow ((dueState T 0).region (regionOf t00)) t00 = true ∧ T.deferMax ≤ T.owed ∧
       ((dueState T 0).region (regionOf t00)).starts < 49) ∧
    (dueNow ((dueState (benchTile 0) 0).region (regionOf t00)) t00 = true ∧ (benchTile 0).readQ = [] ∧
      ((dueState (benchTile 0) 0).region (regionOf t00)).starts < 49) ∧
    ({ benchTile 0 with refreshing := true } : Tile).refreshing = true ∧
    ({ benchTile 0 with burstDue := true } : Tile).burstDue = true ∧
    (let T := { benchTile 0 with owed := 1 }
     T.refreshing = false ∧ T.writing = none ∧ T.burstDue = false ∧ T.owed ≠ 0 ∧ T.readQ = [] ∧ T.writeQ = [] ∧ T.low = []) := by
  decide

theorem witness_SpareColumnsRefresh :
    (let R : Region := { inService := true, refresh := 1024, starts := 48 }
     spareDueNow R t00 = true ∧ R.starts < 49 ∧ spareDueNow { R with starts := 49 } t00 = true) ∧
    (let R : Region := { inService := true, spareDue := [0], starts := 48 }
     t00.col.val % 28 ∈ R.spareDue ∧ t00.col.val % 28 ∉ R.spareOn ∧ R.starts < 49) := by decide

theorem witness_ContributionsAreAdded :
    ((1 : Int) ≠ 0 ∧ (-48 : Int) ≤ 35 ∧ (35 : Int) ≤ 35) ∧ ((-48 : Int) ≤ 35 ∧ (35 : Int) < 36) ∧ ((-49 : Int) < -48 ∧ (-49 : Int) ≤ 35) := by
  decide

theorem witness_AccumulatorsForgetOrder :
    [AccStep.row { terms := [(1, 0)] }, .value 23 (.fin false 3 (-49)), .image (5 :: zeros 15)].Perm
      [AccStep.image (5 :: zeros 15), .value 23 (.fin false 3 (-49)), .row { terms := [(1, 0)] }] := by decide

/-- An operation of the row engine or the vector unit. -/
def aop (op : Nat) (f : FmtA) : AOp := { id := 1, op := op, f := f, d := accR 0 64, total := 1 }

theorem witness_MatvLinesAccumulate :
    (let o := aop 0x80 (fA 0 9 7 4 0 0 0 0)
     let T := { benchTile 0 with rowQ := [o], lineBuf := [{ id := 1, line := {} }] }
     T.rowQ = o :: [] ∧ T.inOrder o.id = true ∧ o.op = 0x80 ∧ o.f.sfx.toNat % 4 ≠ 2 ∧ T.lineBuf = { id := o.id, line := {} } :: [] ∧ o.total ≤ o.done + 1) := by
  decide

theorem witness_VectorGroupsWriteTheirElements :
    ∀ x ∈ [(0x46, (0 : BitVec 4)), (0x82, 0), (0xA2, 2)],
      let o := aop x.1 (fA x.2 1 2 1 0 0 0 0)
      let T := { benchTile 0 with vecQ := [o] }
      T.vecQ = o :: [] ∧ T.inOrder o.id = true ∧ held (oneTile T) t00 = false ∧ o.op = x.1 ∧ o.f.sfx = x.2 := by decide

theorem witness_RoundingAndFormats :
    ((3 : Nat) ≠ 0 ∧ Nat.log2 3 ≤ 7) ∧ (7 < Nat.log2 511) ∧ ((0 : Nat) < 1 ∧ (1 : Nat) < 2 ^ 1) ∧
    (0x3F80 / 2 ^ 7 % 256 ≠ 0 ∧ 0x3F80 / 2 ^ 7 % 256 ≠ 255) ∧ (0x7F80 / 2 ^ 7 % 256 = 255 ∧ 0x7F80 % 2 ^ 7 = 0) ∧
    (0xFFFF / 2 ^ 7 % 256 = 255 ∧ 0xFFFF % 2 ^ 7 ≠ 0) ∧ (0x807F / 2 ^ 7 % 256 = 0 ∧ 0x807F < 2 ^ 16) := by decide

/-- A flit from the tile to its eastern neighbour, and one to itself. -/
def flitTo (t : TileAddr) (b : FlitBody) : Flit := { src := .tile t10, dst := t, body := b }

theorem witness_FlitsMove :
    (let o : SendOp := { id := 1, desc := false, step := false, chan := .sched, dst := t10, g0 := 0, base := 0, n := 2, stage := 1 }
     let T := { benchTile 0 with sendQ := [o] }
     T.sendQ = o :: [] ∧ held (oneTile T) t00 = false ∧ (T.fifoOf .loc o.chan).length < fifoDepth o.chan ∧ o.stage = 0 + 1 ∧
     T.inOrder o.id = true ∧ 2 * 0 + 2 ≤ o.n ∧ o.lastFlit = true) ∧
    (let T := { benchTile 0 with mgmtQ := [flitTo t10 (.wake 0)] }
     held (oneTile T) t00 = false ∧ (flitTo t10 (.wake 0)).isDue = false ∧ (T.fifoOf .loc .mgmt).length < 2) ∧
    (flitTo t10 (.due 3)).isDue = true ∧
    (let T := { benchTile 0 with mgmtQ := [flitTo t10 (.wake 0)], maxIn := 1 }
     held (oneTile T) t00 = true ∧ ∀ x ∈ T.mgmtQ, x.isFault = false) ∧
    (flitTo t10 (.fault 1)).isFault = true ∧
    (let f := flitTo t10 (.wake 0)
     let T := { benchTile 0 with fifo := FMap.set [] [] (fifoKey .loc .mgmt) [f] }
     let s := oneTile T
     T.skid = [] ∧ (s.partOf t00).rimOut = [] ∧ (s.partOf t00).pageOut = [] ∧ (s.partOf t00).weightOut = [] ∧
     T.fifoOf .loc .mgmt = f :: [] ∧ lostHead s t00 = none ∧
     (pickChan s t00 .east).map (fun x => (x.1, x.2.1)) = some (.mgmt, [.loc]) ∧ t00 ≠ f.dst ∧ neighbour t00 .east = some t10) ∧
    (let f := flitTo t00 (.wake 0)
     let T := { benchTile 0 with fifo := FMap.set [] [] (fifoKey .east .mgmt) [f] }
     let s := oneTile T
     lostHead s t00 = none ∧ (pickChan s t00 .loc).map (fun x => (x.1, x.2.1)) = some (.mgmt, [.east]) ∧ handedOver s t00 f = false ∧
     f.isLine = false) ∧
    (let f := flitTo t00 (.line { level := 3, line := 5, data := {} })
     let T := { benchTile 0 with fifo := FMap.set [] [] (fifoKey .east .flow) [f] }
     let s := oneTile T
     lostHead s t00 = none ∧ (pickChan s t00 .loc).map (fun x => (x.1, x.2.1)) = some (.flow, [.east]) ∧ handedOver s t00 f = false) ∧
    (let f := flitTo ⟨28, 0⟩ (.wake 0)
     let T := { benchTile 0 with fifo := FMap.set [] [] (fifoKey .loc .mgmt) [f] }
     let s : State := { oneTile T with regions := [(0, { routes := [(12, 5)] })] }
     lostHead s t00 = some (.loc, .mgmt) ∧ (s.tile t00).part = some 0 ∧ s.sufinDown = false ∧ (s.part 0).rstate = 0 ∧
     (({ s with parts := [(0, { image := some default })] } : State).part 0).loaded = true) ∧
    -- the way of a flit leads through a lost region
    (let s : State := { State.reset with regions := [(12, { lostBy := 0x31 })] }
     let edge : TileAddr := ⟨27, 0⟩
     edge ≠ ⟨56, 0⟩ ∧ neighbour edge .east = some ⟨28, 0⟩ ∧ (s.region (regionOf ⟨28, 0⟩)).lostBy ≠ 0) := by decide

theorem witness_LinesEnterAtTheRim :
    (let f := flitTo t00 (.line { level := 3, line := 5, data := {} })
     (∀ turn ∈ [false, true], let P : Partition := { pageOut := [f], weightOut := [f, f], lineTurn := turn }
       P.pageOut = f :: [] ∧ P.weightOut = f :: [f] ∧ P.lineTurn = turn) ∧
     (let P : Partition := { gate := t00, weightOut := [f] }
      let s : State := { oneTile (benchTile 0) with parts := [(0, P)] }
      (s.tile t00).part = some 0 ∧ t00 = P.gate ∧ (s.part 0).frozen = false ∧ (s.part 0).rimOut = [] ∧
      (s.tile t00).room (outwardPort t00) .flow = true ∧ (nextLine (s.part 0)).isSome = true)) := by decide

theorem witness_RoutesArrive :
    let s : State := { oneTile (benchTile 0) with regions := [(0, { routes := [(12, 5)] })] }
    t00 ≠ t10 ∧ FMap.get 0 (s.region (regionOf t00)).routes (regionOf t10) = 0 ∧ t00.col < t10.col ∧
    FMap.get 0 (s.region (regionOf t00)).routes (regionOf ⟨28, 0⟩) = 5 ∧ t00 ≠ (⟨28, 0⟩ : TileAddr) ∧
    (∀ k ∈ [1, 4], let s : State := { oneTile (benchTile 0) with regions := [(0, { routes := [(12, BitVec.ofNat 3 k)] })] }
      FMap.get 0 (s.region (regionOf t00)).routes (regionOf ⟨28, 0⟩) = BitVec.ofNat 3 k) := by decide

theorem witness_HeadsAndPayloadsArrive :
    (let f := flitTo t00 (.sendHead 0 2)
     let T := { benchTile 0 with
       deliver := FMap.set [] [] (chanNo .sched) [f], wins := [(15, { opened := true, range := pad 0 2, expected := 64 })] }
     T.deliverOf .sched = f :: [] ∧ f.src ≠ .signalBox ∧ 0 < 0x3000 ∧ T.windowFor 0 2 = some 15 ∧ T.windowFor 1 2 = none) ∧
    (∀ n ∈ [0, 1], let o : Outbound := { src := .tile t10, chan := .sched, g0 := outboundBase, n := 1, got := List.replicate n 0 }
     let T := { benchTile 0 with
       deliver := FMap.set [] [] (chanNo .sched) [flitTo t00 (.sendHead 0x3000 2)], outbound := [o] }
     T.deliverOf .sched = flitTo t00 (.sendHead 0x3000 2) :: [] ∧ (flitTo t00 (.sendHead 0x3000 2)).src ≠ .signalBox ∧
     t00 = ((oneTile T).partOf t00).gate ∧ (if n = 1 then ∃ o ∈ T.outbound, o.got.length = o.n else ∀ o ∈ T.outbound, o.got.length ≠ o.n)) ∧
    (let T := { benchTile 0 with deliver := FMap.set [] [] (chanNo .sched) [flitTo t00 (.descHead 32)] }
     T.deliverOf .sched = flitTo t00 (.descHead 32) :: []) ∧
    (let f := flitTo t00 (.payload [1, 2])
     let a : Arriving := { src := .tile t10, chan := .sched, win := 15, next := 0, left := 2 }
     let T := { benchTile 0 with
       deliver := FMap.set [] [] (chanNo .sched) [f], arriving := [a]
       wins := [(15, { opened := true, range := pad 0 2, expected := 64 })] }
     T.deliverOf .sched = f :: [] ∧ T.arriving.find? (fun a => a.src == f.src && a.chan == Chan.sched) = some a ∧ a.drop = false ∧
     T.nap.rest = .awake ∧ (addArrive (T.arrived a.win) 2).toNat ≤ (T.window a.win).expected) := by decide

theorem witness_ManagementFlitsAreDelivered :
    (∀ b ∈ [FlitBody.credit 15 254, .credit 0 255, .wake 5, .step 1 2],
      let T := { benchTile 0 with deliver := FMap.set [] [] (chanNo .mgmt) [flitTo t00 b] }
      T.deliverOf .mgmt = flitTo t00 b :: [] ∧ T.nap.rest = .awake ∧ T.mailbox.length < 2) ∧
    ((benchTile 0).creditOf 15).toNat + 254 ≤ 255 ∧ 255 < ((benchTile 0).creditOf 0).toNat + 255 ∧
    2 ≤ ({ benchTile 0 with mailbox := [(0, 0), (1, 1)] } : Tile).mailbox.length ∧
    (let T := { benchTile 0 with
       deliver := FMap.set [] [] (chanNo .sched) [flitTo t00 (.payload [1, 2])]
       descIn := [{ src := .tile t10, chan := .sched, left := 2 }], descQ := List.replicate 30 0 }
     (T.descPayload .sched).isSome = true ∧ T.descQ.length + 2 ≤ 32) := by decide

theorem witness_HoldsBarriersAndRest :
    ((({ State.reset with regions := [(0, { lostBy := 0x33 })] } : State).region (regionOf t00)).lostBy ≠ 0 ∧
      (State.reset.region (regionOf t00)).lostBy = 0) ∧
    ((benchTile 0).part = some 0 ∧ notAhead 0 (benchTile 0).late = true ∧ serialGt 1 ((oneTile (benchTile 0)).part 0).rootMax = true ∧
      serialGt 0 0 = false ∧ serialGt 0 0xFFFFFFFF = true) ∧
    (let s : State := { oneTile { benchTile 0 with late := 5 } with parts := [(0, { running := true, rootMax := 4 })] }
     notAhead 5 (s.tile t00).late = true ∧ serialGt 5 (s.part 0).rootMax = true ∧ notAhead 4 (s.part 0).rootMax = true ∧
     serialGt 4 (s.tile t00).maxIn = true) ∧
    (let T := { benchTile 0 with holdreqOn := true }
     T.holdreqOn = true ∧ T.holdreq = 0) ∧
    ({ benchTile 0 with starting := true } : Tile).starting = true ∧
    (let s := oneTile { benchTile 0 with barMember := 0x80000000, barSense := 0x80000000 }
     barMembers s 0 31 ≠ [] ∧ ∀ T ∈ barMembers s 0 31, T.barSense.getLsbD 31 = true) ∧
    (let s : State := { oneTile (benchTile 0) with tiles := [(0, { benchTile 0 with barMember := 1, barSense := 1 }),
       (512, { benchTile 0 with barMember := 1 })] }
     ∃ T ∈ barMembers s 0 0, ∃ U ∈ barMembers s 0 0, T.barSense.getLsbD 0 ≠ U.barSense.getLsbD 0) ∧
    (∀ n ∈ [0, 15, 16],
      let s : State := { oneTile { benchTile 0 with nap := { rest := .entering, steps := n } } with regions := [(0, { entries := [t00] })] }
      (s.region 0).gap = 0 ∧ (s.region 0).exits = [] ∧ (s.region 0).entries = t00 :: [] ∧ (s.tile t00).nap.steps = n) ∧
    (∀ n ∈ [0, 1, 16],
      let s : State := { oneTile { benchTile 0 with nap := { rest := .leaving, steps := n } } with
        regions := [(0, { exits := [t00], entries := if n = 1 then [t10] else [] })] }
      (s.region 0).gap = 0 ∧ (s.region 0).exits = t00 :: [] ∧ (s.tile t00).nap.steps = n ∧
      (∀ e ∈ (s.region 0).entries.head?, (s.tile e).nap.steps < 16) ∧ (n = 0 → (s.region 0).entries = [])) ∧
    ({ gap := 6 } : Region).gap ≠ 0 ∧
    (let T := { benchTile 0 with nap := { rest := .spin, mask := 1, limit := 7, clk := 7, sd := 3 } }
     T.nap.rest = .spin ∧ T.nap.limit ≠ 0 ∧ T.nap.limit ≤ T.nap.clk ∧ T.wakeLatch &&& T.nap.mask = 0) := by decide

/-! ### Witnesses: rows, steps and tokens -/

/-- One row beside a loaded partition. -/
def oneRow (r : Nat) (x : Row) : State :=
  { State.reset with rows := [(r, x)], parts := [(0, { running := true, image := some default })] }
/-- The same at a hall time of `n` ns. -/
def rowAt_ (n r : Nat) (x : Row) : State := { oneRow r x with hall := { now := n * 65536 } }

theorem witness_HostsAndClocksMoveRows :
    ((oneRow 0 {}).recovery = false ∧ ({ oneRow 0 {} with recovery := true } : State).recovery = true) ∧
    (∀ st ∈ [0, 1, 2, 3, 4, 5, 9, 7, 8],
      let s := oneRow 8191 { state := st, gen := 0xFFFF }
      reaches s 0 8191 = true ∧ (s.row 8191).gen = 0xFFFF ∧ (s.row 8191).state = st) ∧
    (let s : State := { oneRow 8191 { state := 7 } with
       parts := [(0, { inflight := [{ man := { (default : Manifest) with entries := [{ (default : Entry) with row := 8191 }] } }] })] }
     (s.part (s.row 8191).part).inFlight 8191 = true) ∧
    ((oneRow 8191 { state := 7 }).part 0).inFlight 8191 = false ∧
    reaches (oneRow 0 {}) 1 0 = false ∧ (0 : BitVec 16) ≠ ((oneRow 0 { gen := 1 }).row 0).gen ∧
    (let s := oneRow 0 { state := 2, fetch := .running, promptLen := 2 }
     (s.row 0).state = 2 ∧ (s.row 0).fetch = .running ∧ [1, 2].length = (s.row 0).promptLen.toNat) ∧
    (let s := rowAt_ 6 0 { state := 2, deadline := 5 }
     (s.row 0).deadline ≠ 0 ∧ (s.row 0).deadline.toNat < s.ns ∧ (s.row 0).state = 2 ∧ (s.row 0).missed = false) ∧
    (let s := rowAt_ 5 0 { state := 2, deadline := 5 }
     s.ns ≤ (s.row 0).deadline.toNat) ∧
    (let s := rowAt_ 80000000 0 { state := 3, since := some 0 }
     (s.row 0).since = some 0 ∧ (s.row 0).active = true ∧ (s.row 0).overdue = false ∧ 0 + 80000000 ≤ s.ns) := by decide

theorem witness_SpeculativeMessages :
    (let m : SpecMsg := { k := 8, mainRow := 1, draftRow := 0, b := 1, tokens := [7] }
     let s := oneRow 0 { ctrl := 0x100000, state := 5, maxLen := 9 }
     (s.row m.draftRow).draft = true ∧ (s.row m.draftRow).part = 0 ∧ (s.row m.draftRow).state = 5 ∧ m.tokens.length ≤ m.b ∧
     m.b - m.tokens.length ≤ (s.row m.draftRow).log.length ∧ m.b + m.k ≤ (s.row m.draftRow).maxLen.toNat ∧ m.k ≠ 0) ∧
    -- the same request where its drafts would pass MAX_LEN
    (let d := (oneRow 0 { ctrl := 0x100000, state := 5, maxLen := 8 }).row 0
     d.draft = true ∧ d.state = 5 ∧ 1 ≤ d.maxLen.toNat ∧ ¬ 1 + 8 ≤ d.maxLen.toNat) ∧
    (∀ x ∈ [({ state := 3 } : Row), { state := 4 }, { state := 2, fetch := .done }],
      let m : SpecMsg := { k := 0, mainRow := 1, draftRow := 0, b := 1, tokens := [7] }
      let d := (oneRow 0 { x with ctrl := 0x100000, maxLen := 9 }).row 0
      d.draft = true ∧ d.part = 0 ∧ m.tokens.length ≤ m.b ∧ m.b - m.tokens.length ≤ d.log.length ∧ m.b + m.k ≤ d.maxLen.toNat ∧
      (d.state = 3 ∨ d.state = 4 ∨ (d.state = 2 ∧ d.fetch = .done))) ∧
    (let d := (oneRow 0 { ctrl := 0x100000, state := 7, maxLen := 9 }).row 0
     d.draft = true ∧ ¬ (d.state = 3 ∨ d.state = 4 ∨ (d.state = 2 ∧ d.fetch = .done)) ∧ d.state ≠ 5 ∧ ¬ (2 : Nat) ≤ d.log.length) ∧
    (let s : State := { oneRow 0 { ctrl := 0x100000, state := 5 } with
       parts := [(0, { inflight := [{ man := { (default : Manifest) with entries := [{ (default : Entry) with row := 0 }] } }] })] }
     (s.row 0).active = true ∧ (s.part 0).inFlight 0 = true) ∧
    (let s := oneRow 0 { ctrl := 0x100000, state := 3 }
     (s.row 0).draft = true ∧ 3 ≤ (s.row 0).state ∧ (s.row 0).state ≠ 5 ∧ (s.row 0).active = true ∧
     (s.part 0).inFlight 0 = false) ∧
    (let s := oneRow 1 { asked := some (4, 0), working := some 4 }
     (s.row 1).part = 0 ∧ (s.row 1).asked = some (4, 0) ∧ (s.row 1).working = some 4 ∧ (s.row 0).part = 0 ∧
     (s.row 0).asked.map (·.1) ≠ some 4 ∧ ((oneRow 1 { ctrl := 0x10000000 }).row 1).part ≠ 0) ∧
    (let s := rowAt_ 1000000000 1 { asked := some (4, 0) }
     0 + (s.part (s.row 1).part).waitNs ≤ s.ns) := by decide

/-- A row that a step boundary lets ride: its last token is taken. -/
def riding : State := oneRow 3 { state := 5, promptLen := 1, maxLen := 9, log := [(7, 0)], closedTo := 0 }

theorem witness_BoundariesCloseManifests :
    (∀ n ∈ [1, 2, 0, 3], ({ running := true, rstate := n } : Partition).rstate = n) ∧
    closes (boundaryHead (oneTile (benchTile 0)) 0) 0 = false ∧
    (closes (boundaryHead (oneRow 0 {}) 0) 0 = true ∧ choose (stallRows (boundaryHead (oneRow 0 {}) 0) 0) 0 = none) ∧
    (closes (boundaryHead riding 0) 0 = true ∧ (choose (stallRows (boundaryHead riding 0) 0) 0).isSome = true) ∧
    (let s : State := { State.reset with parts := [(0, { specShadow := some 5 })] }
     (s.part 0).rstate = 0 ∧ (s.part 0).specShadow = some 5 ∧ s.rowsOf 0 = [] ∧ (s.part 0).copy0 = none ∧ (s.part 0).copy1 = none ∧
     (s.part 0).slots = [] ∧ (s.part 0).withheld = [] ∧ s.rings = [] ∧ s.house.log.shadow = none) := by decide

theorem witness_ManifestsAndCredits :
    (let x : StepRun := { man := default }
     let s : State := { State.reset with parts := [(0, { credits := 1, inflight := [x] })] }
     (s.part 0).credits ≠ 0 ∧ (s.part 0).rstate = 0 ∧ (s.part 0).frozen = false ∧ (s.part 0).sendGap = 0 ∧ nextUnsent s 0 (s.part 0).inflight = some (0, x)) ∧
    ({ credits := 0 } : Partition).credits = 0 ∧ ({ frozen := true } : Partition).frozen = true ∧ ({ sendGap := 1 } : Partition).sendGap ≠ 0 ∧
    (let f := flitTo t00 (.credit 15 255)
     pickRim (Flit.isCredit 15) [(.mgmt, f)] = some (f, [])) ∧
    (let x : StepRun := { man := default, sent := true }
     let f := flitTo t00 (.credit 14 1)
     pickRim (Flit.isCredit 14) [(.mgmt, f)] = some (f, []) ∧ retireOldest [x] = some (x, [])) := by decide

theorem witness_PagesFillAndAcknowledge :
    (∀ who ∈ [8191, 8192, 131071, 131072], ({ lineAcks := [who] } : Partition).lineAcks = who :: []) ∧
    (∀ n ∈ [1, 2], let L : Landing := { (default : Landing) with no := 3, row := some 4, left := n, acks := 1 }
      let P : Partition := { lineAcks := [131075], landings := [L] }
      P.lineAcks = 131075 :: [] ∧ (P.landings.find? fun M => M.no == 131075 - 131072) = some L ∧ L.left = n) ∧
    (let f := flitTo t00 (.pageFull 3 0)
     let t : Tent := { page := 65536 }
     let s : State := { State.reset with
       rows := [(3, { state := 5, closedTo := 64, pages := { tables := [(0, [t])] } })]
       parts := [(0, { rimIn := [(.mgmt, f)], dir := [(65536, some { layer := 0, k8 := false, st := .filling, refs := 1, slot := none })] })] }
     pickRim Flit.isPageFull (s.part 0).rimIn = some (f, []) ∧ f.body = .pageFull 3 0 ∧ (s.row 3).part = 0 ∧
     noticePage s 3 0 = some (0, t) ∧ ((s.part 0).page t.page).isSome = true) := by decide

/-- A ring of 2 records beside row 3, which waits with a token; the host port is up. -/
def ringState (x : Row) (g : Ring) : State :=
  { oneRow 3 x with rings := [(0, g)], host := { up := true }, vifs := [(0, { enabled := true, busMaster := true })] }

theorem witness_TokensAreDelivered :
    (let n : Notice := { tok := 1, id := 7, flags := 0 }
     let s := ringState { state := 5, promptLen := 1, maxLen := 9, log := [(4, 0)], stopId := 0xFFFFFFFF, hold := some n }
       { enable := true, log2size := 1 }
     (s.row 3).hold = some n ∧ rowRoom s (s.row 3) = true ∧ (s.row 3).draft = false ∧ (s.row 3).finish = none ∧ (s.row 3).want = none ∧
     n.flags.getLsbD 0 = false ∧ n.id ≠ (s.row 3).stopId ∧ (s.row 3).promptLen.toNat + ((s.row 3).genLen + 1) ≠ (s.row 3).maxLen.toNat ∧
     (s.part (s.row 3).part).measuring = false) ∧
    (let f := flitTo t00 (.token 3 0 4 0)
     let s := ringState { state := 5, promptLen := 1, maxLen := 9, log := [(4, 0)], stale := 1 } {}
     pickRim (noticeReady s) [(.mgmt, f)] = some (f, []) ∧ (s.row 3).part = 0 ∧ (s.row 3).stale ≠ 0) ∧
    (∀ x ∈ [((0 : Nat), (4 : Nat)), (0, 5), (1, 6)],
      let f := flitTo t00 (.token 3 x.1 x.2 0)
      let s := ringState { state := 5, promptLen := 1, maxLen := 9, log := [(4, 0)] } {}
      pickRim (noticeReady s) [(.mgmt, f)] = some (f, []) ∧ (s.row 3).part = 0 ∧ (s.row 3).stale = 0 ∧
      x.1 ≤ (s.row 3).promptLen.toNat + (s.row 3).genLen ∧ (s.row 3).hold = none ∧ (s.row 3).judge = none ∧ (s.row 3).draft = false ∧ (s.row 3).specOn = false ∧ (s.row 3).want = none ∧ (s.row 3).state = 5 ∧
      rowRoom s (s.row 3) = false) ∧
    pageShown State.reset 127 pageSig = true ∧ (0x80000000 : Word).getLsbD 31 = true ∧
    (((0x84000000 : Word).extractLsb' 26 5).toNat ≠ 0 ∧ (ringState {} { enable := true }).ring 0 0 = { enable := true }) ∧
    (let s : State := { ringState {} { quiet := 1, batch := 2, holdoff := 4095 } with hall := { now := 4095000 * 65536 } }
     (s.ring 0 0).quiet ≠ 0 ∧ (s.ring 0 0).batch ≠ 0 ∧ (s.ring 0 0).holdoff ≠ 0 ∧
     (s.ring 0 0).quietAt + 1000 * (s.ring 0 0).holdoff ≤ s.ns) := by decide

/-! ### Witnesses: handles, ship messages, images and loads -/

/-- A partition with an image and nothing else; a partition of the cache role. -/
def loadedPart : Partition := { image := some default }
def storePart : Partition := { image := some default, role := 2 }

/-- A finished row of window 3 with 5 tokens, whose pages hold the first 5. -/
def finished : State :=
  { State.reset with
    rows := [(2, { state := 7, owner := 3, log := [(1, 0), (2, 0), (3, 0), (4, 0), (5, 0)], closedTo := 5 })], parts := [(0, loadedPart)]
    kvp := [(3, { row := 2, len := 5 })] }

/-- Handle 1 of window 3, resident in partition 0, beside a cache partition 1; the KVP page of the window names it and partition 1. -/
def withHandle1 (H : Handle) (K : KvWin) : State :=
  { State.reset with handles := [(1, { H with live := true, owner := 3, gen := 7 })], parts := [(0, loadedPart), (1, storePart)]
                     kvp := [(3, { K with handle := 0x00070001, dest := 0x100000000 })] }

theorem witness_HandleCommands :
    (State.reset.recovery = false ∧ ({ State.reset with recovery := true } : State).recovery = true) ∧
    ({ State.reset with kvp := [(3, { busy := true })] } : State).kv 3 = { busy := true } ∧
    (∀ op ∈ [1, 3, 4], ∀ n ∈ [0, 2], let R : KvRun := { op := op, handle := 1, part := 0, hall := 0 }
      let s : State := { State.reset with kvp := [(3, { busy := true, run := some R })], handles := [(1, { live := true, pages := { acks := n } })] }
      (s.kv 3).run = some R ∧ R.away = false ∧ (s.handle R.handle).pages.acks = n ∧ kvOn s 1 ≠ []) ∧
    (let s : State := { withHandle1 { pages := { tables := [(0, [{ page := 5 }])] } } {} with kvp := [(3, { handle := 0x00070001, dest := 1 })] }
     (s.kv 3).busy = false ∧ handleOf s (s.kv 3).handle = some (1, s.handle 1) ∧ (s.handle 1).parked = none ∧ kvOn s 1 = [] ∧
     (s.kv 3).dest.getLsbD 0 = true ∧ ∃ kv ∈ (s.handle 1).pages.tables, kv.2 ≠ []) ∧
    (let s := finished
     let x := s.row 2
     (s.kv 3).busy = false ∧ ((s.kv 3).row.extractLsb' 0 13).toNat = 2 ∧ (s.kv 3).len.toNat = 5 ∧ x.owner = 3 ∧ x.state = 7 ∧
     x.part = ((s.kv 3).part.extractLsb' 0 4).toNat ∧ 5 ≤ x.closedTo ∧ lostBelow s 2 5 = false ∧
     ((List.range 4096).find? fun i => i != 0 && !(s.handle i).live) = some 1 ∧ tableRun s x.part (cdiv (1 + 1) 128) = some 0 ∧
     ((s.part x.part).feet.foldl (fun acc f => createLayer 2 1 5 acc f.layer) (some (s, { base := 0, lines := 1 }))).isSome = true) ∧
    (let s := withHandle1 {} {}
     (s.kv 3).busy = false ∧ handleOf s (s.kv 3).handle = some (1, s.handle 1) ∧ (s.handle 1).owner = 3 ∧ kvOn s 1 = [] ∧
     (s.handle 1).parked = none ∧ (s.kv 3).dest.getLsbD 0 = false ∧ ((s.kv 3).dest.extractLsb' 32 4).toNat = 1 ∧
     (s.part 1).loaded = true ∧ (s.part 1).role = 2 ∧
     (moveAll s 0 1 1 (s.handle 1) (fun _ => (s.part 1).storeTiles) (fun l k => 1 + k + l)).isSome = true) ∧
    (let s := withHandle1 { parked := some (0, 1), part := 1 } {}
     handleOf s (s.kv 3).handle = some (1, s.handle 1) ∧ (s.handle 1).parked = some (s.hall.addr, 1) ∧ (s.part (s.handle 1).part).role = 2 ∧
     ((s.kv 3).part.extractLsb' 0 4).toNat = 0 ∧ (s.part 0).loaded = true ∧ (s.part 0).role ≠ 2 ∧
     tableRun s 0 (cdiv (0 + 1) 128) = some 0 ∧
     (moveAll s 1 0 1 (s.handle 1) (fun l => (s.part 0).plat l) (fun _ k => 1 + k)).isSome = true) := by decide +kernel

/-- An import row 4 of partition 0 that waits for page 0 of layer 0, and a message with 7 positions of it. -/
def importing (placed : Bool) : State :=
  { State.reset with
    parts := [(0, { loadedPart with image := some { (default : ImageData) with groups := 1, service := [.footprint 0 0 [0] []] } })]
    rows := [(4, { state := 9, ctrl := 0x400000, promptLen := 8, runs := if placed then [] else [{ layer := 0, k := 0, home := 0, unit := 0, units := 9 }]
                   pages := { tables := if placed then [(0, [{ page := 5 }])] else [] } })] }
def page7 : ShipMsg :=
  { (default : ShipMsg) with kind := 5, destRow := 4, fill := 7, promptLen := 8 }

theorem witness_ShipMessages :
    (shipTwice (importing true) 0 page7 = true ∧ ((importing true).part 0).role ≠ 2 ∧ ((importing true).part 0).landings = [] ∧
      (let L : Landing := { (default : Landing) with hall := page7.srcHall, ack := ackOf page7 0 }
       [L].any (fun L => L.hall == page7.srcHall && L.ack == ackOf page7 0) = true)) ∧
    (shipStatus (importing false) 0 page7 = 0 ∧ shipTwice (importing false) 0 page7 = false ∧
      (shipPlace (importing false) 0 page7).isSome = true ∧ ({ page7 with lines := [default] } : ShipMsg).lines ≠ []) ∧
    (let s := importing false
     let m := { page7 with promptLen := 9 }
     shipTwice s 0 m = false ∧ shipStatus s 0 m ≠ 0 ∧ (s.row m.destRow).state = 9 ∧ (s.row m.destRow).part = 0) ∧
    (shipStatus State.reset 0 page7 ≠ 0 ∧ shipTwice State.reset 0 page7 = false ∧ (State.reset.row 4).state ≠ 9 ∧
      (State.reset.part 0).role ≠ 2) ∧
    (let y : Shipped := { part := 0, msg := { page7 with srcRow := 2 }, hall := 5, at_ := 0 }
     -- beside it a message of another partition for the same row, page and layer
     let s := { rowAt_ 1000000 2 { exportsLeft := 2 } with shipped := [{ y with part := 1 }, y] }
     (s.shipped.find? fun z => z.part == 0 && z.msg.destRow == 4 && z.msg.k == 0 && z.msg.layer == 0) = some y ∧ y.window = none ∧
     (s.row y.msg.srcRow).part = 0 ∧ 2 ≤ (s.row y.msg.srcRow).exportsLeft ∧ s.shipped[1]? = some y ∧ y.part = 0 ∧
     y.at_ + 1000000 ≤ s.ns ∧ y.tries < 64 ∧ s.shipped[0]? = some { y with part := 1 }) ∧
    (let y : Shipped := { part := 0, msg := page7, hall := 5, at_ := 1 }
     let s := { rowAt_ 1000000 2 {} with shipped := [y] }
     s.shipped[0]? = some y ∧ s.ns < y.at_ + 1000000) := by decide +kernel
/-- A cache partition's image over region 0: a HALT on every tile, one store tile. -/
def storeImage : ImageData :=
  let ts : List Word := (rectTiles 0 0 1 1 none).map (BitVec.ofNat 32)
  { header := { magic := 0x4C573934, format := 1, imageLen := 16512, gx0 := 0, gy0 := 0, width := 1, height := 1, mode := 0, arith := 0,
                role := 2, refreshDecl := 0xFF, stepInterval := 0, entryTile := 0, gateTile := 0, manifestDigest := 0, toolVersion := 0,
                buildSerial := 0, reservedZero := true }
    secs := [⟨1, 0, 4096, 0, true⟩, ⟨3, 0, 8192, 0, true⟩, ⟨5, 0, 12288, 0, true⟩, ⟨6, 0, 16384, 0, true⟩]
    programs := ts.map fun t => { tile := t, words := [0x0600000000000000] }
    plans := [], inits := ts.map fun t => { tile := t, credit := [], barMember := 0 }
    weights := { lines := [], layout := none, adapters := [] }
    areas := [{ tile := 0xFFFFFFFF, kind := 5, first := 0, count := 8192 }]
    service := [.store [⟨0, 0, 1, 1⟩]]
    slots := [], outRoutes := [], routes := [], divs := [], groups := 1, keyId := 9, sigValid := true, digest := 0 }

/-- Region 0 is in service and key 9 may build. -/
def enrolled : State :=
  { State.reset with regions := [(0, { inService := true })], sec := { keys := [(1, some { id := 9, usage := 3 })] } }


/-- A list that rises all along holds the places it holds. -/
theorem samePlaces_of_rising (a : List Nat) (h : a.Pairwise (· < ·)) : samePlaces a a = true := by
  have e : ∀ a : List Nat, a.Pairwise (· < ·) → a.eraseDups = a := by
    intro a h
    induction a with
    | nil => rfl
    | cons x xs ih =>
      rw [List.pairwise_cons] at h
      rw [List.eraseDups_cons, List.filter_eq_self.mpr, ih h.2]
      intro y hy
      have := h.1 y hy
      simp; omega
  simp [samePlaces, e a h]

theorem rising_of_chain : ∀ a : List Nat, ((a.zip a.tail).all fun x => x.1 < x.2) = true → a.Pairwise (· < ·)
  | [], _ => .nil
  | [_], _ => by simp
  | x :: y :: l, h => by
    simp only [List.tail_cons, List.zip_cons_cons, List.all_cons, Bool.and_eq_true, decide_eq_true_eq] at h
    have ih := rising_of_chain (y :: l) (by simpa using h.2)
    refine List.pairwise_cons.mpr ⟨fun z hz => ?_, ih⟩
    rcases List.mem_cons.mp hz with rfl | hz
    · exact h.1
    · exact Nat.lt_trans h.1 ((List.pairwise_cons.mp ih).1 z hz)

/-- The tiles of region 0, the rectangle of the store image. -/
theorem storeTiles_rise : ((rectTiles 0 0 1 1 none).zip (rectTiles 0 0 1 1 none).tail).all (fun x => x.1 < x.2) = true := by
  decide +kernel

theorem programs_place : (storeImage.programs.map fun p => p.tile.toNat) = rectTiles 0 0 1 1 none := by decide +kernel
theorem inits_place : (storeImage.inits.map fun p => p.tile.toNat) = rectTiles 0 0 1 1 none := by decide +kernel

theorem bodyCheck_store : bodyCheck storeImage (rectTiles 0 0 1 1 none) none = (0, 0) := by
  have e := samePlaces_of_rising _ (rising_of_chain _ storeTiles_rise)
  have h1 : programsOk storeImage (rectTiles 0 0 1 1 none) = true := by
    unfold programsOk
    rw [programs_place, e, Bool.true_and]
    decide +kernel
  have h2 : initsOk storeImage (rectTiles 0 0 1 1 none) = true := by
    unfold initsOk
    rw [inits_place, e, Bool.true_and]
    decide +kernel
  have h3 : plansOk storeImage (rectTiles 0 0 1 1 none) = true := by decide +kernel
  have h4 : serviceOk storeImage (rectTiles 0 0 1 1 none) = true := by decide +kernel
  have h5 : areasOk storeImage (rectTiles 0 0 1 1 none) = true := by decide +kernel
  have h6 : weightsOk storeImage (rectTiles 0 0 1 1 none) = true := by decide +kernel
  have h7 : routesPass storeImage.routes none (rectTiles 0 0 1 1 none) = true := by decide +kernel
  have h8 : ((storeImage.header.role == 2) != (storeImage.header.manifestDigest == 0)) = false := by decide +kernel
  simp only [bodyCheck, h1, h2, h3, h4, h5, h6, h7, h8]
  rfl

theorem imageCheck_store : (imageCheck enrolled 0 16512 storeImage).1 = 0 := by
  unfold imageCheck
  have h0 : badEntry storeImage = none := by decide +kernel
  simp only [h0]
  have h : rectTiles storeImage.header.gx0 storeImage.header.gy0 storeImage.header.width storeImage.header.height none =
    rectTiles 0 0 1 1 none := rfl
  rw [h, bodyCheck_store]
  decide +kernel

/-- The first 36 bytes of an image written out from Table 7.4, one directory entry from Table 7.5, and the layout read back. -/
def headerFile : List Byte :=
  [0x34, 0x39, 0x57, 0x4C, 1, 0, 1, 0] ++ bytesLE 8 672 ++ [2, 3, 4, 5, 1, 0, 0, 4] ++ bytesLE 4 1000 ++ bytesLE 4 0x8005 ++ bytesLE 4 0x20003 ++
    zeros 476 ++ [9, 0, 7, 0] ++ zeros 28 ++ zeros 128
theorem test_image_header :
    let I := imageOf { (default : ImageFile) with bytes := headerFile } 672
    let h := I.header
    [h.magic.toNat, h.format.toNat, h.imageLen, h.gx0, h.gy0, h.width, h.height, h.mode, h.refreshDecl, h.stepInterval, h.entryTile.toNat,
      h.gateTile.toNat] = [0x4C573934, 1, 672, 2, 3, 4, 5, 1, 4, 1000, 0x8005, 0x20003] ∧ h.reservedZero = true ∧
    I.secs.map (fun e => (e.kind, e.index)) = [(9, 7)] ∧ I.divs.map (·.region) = [7] := by decide +kernel

/-- The store image waits in the physical function's window for its checks. -/
def imageWaits (img : ImageData) (running : Nat) : State :=
  { enrolled with
    rnd := [(0, { busy := true, len := 16512, image := some { part := 0, img := img } })], rows := if running = 0 then [] else [(1, { state := 5 })] }

theorem witness_ImagesAndQuarantine :
    (State.reset.recovery = false ∧ ({ State.reset with recovery := true } : State).recovery = true) ∧
    ({ State.reset with bru := { done := true } } : State).bru.done = true ∧ State.reset.bru.done = false ∧
    (State.reset.rn 0).busy = false ∧
    (let s := imageWaits default 0
     (s.rn 0).image = some { part := 0, img := default } ∧ (imageCheck s 0 (s.rn 0).len.toNat default).1 ≠ 0) ∧
    (let s := imageWaits storeImage 0
     (s.rn 0).image = some { part := 0, img := storeImage } ∧ (s.rn 0).load = none ∧ (s.rn 0).len.toNat = 16512 ∧ partActive s 0 = 0) ∧
    (let s : State := { State.reset with parts := [(15, { quarantine := true })] }
     (s.part 15).quarantine = true ∧ s.bru.warmWaits = false ∧ ∀ kv ∈ s.rnd, kv.2.image = none) ∧
    (let s := imageWaits default 0
     (s.rn 127).busy = false ∧ (s.rn 0).busy = true ∧ ∀ I, (s.rn 0).image = some I → (s.rn 0).load = none → I.quarantined = false) := by
  refine ⟨by decide, by decide, by decide, by decide, by decide +kernel, ⟨rfl, by decide, by decide, by decide⟩, by decide, by decide, by decide, ?_⟩
  intro I h _
  cases h
  rfl

theorem witness_ImagesAndQuarantine_passes :
    (imageCheck (imageWaits storeImage 0) 0 ((imageWaits storeImage 0).rn 0).len.toNat storeImage).1 = 0 := by
  have h : ∀ s : State, s.regions = enrolled.regions → s.parts = [] → s.sec = enrolled.sec → s.ports = [] → s.hall = {} →
      (imageCheck s 0 16512 storeImage).1 = 0 := by
    intro s h1 h2 h3 h4 h5
    have := imageCheck_store
    have hk : keyOk s storeImage.keyId 0 = keyOk enrolled storeImage.keyId 0 := by simp [keyOk, h3]
    have hr : rectOk s 0 storeImage.header = rectOk enrolled 0 storeImage.header := by
      simp [rectOk, State.region, h1, h2, enrolled, State.reset]
    have ht : timetableOk s 0 storeImage = timetableOk enrolled 0 storeImage := by
      simp [timetableOk, State.port, h4, h5, enrolled, State.reset]
    have hm : storeImage.header.mode = 0 := rfl
    unfold imageCheck at this ⊢
    simp only [hk, hr, ht, hm] at this ⊢
    simpa using this
  have e : ((imageWaits storeImage 0).rn 0).len.toNat = 16512 := by decide
  rw [e]
  exact h (imageWaits storeImage 0) (by simp [imageWaits]) (by simp [imageWaits, enrolled, State.reset]) (by simp [imageWaits]) (by simp [imageWaits, enrolled, State.reset]) (by simp [imageWaits, enrolled, State.reset])

/-- A signed manifest of kind 0 or 1 with one shard of 3 or of 1,088 bytes, byte by byte (Tables 10.1 to 10.3), and what it says. -/
def shard3 : ShardEntry := { index := 0, length := 3, digest := 77, sources := [⟨1, 0⟩, ⟨0, 0⟩, ⟨0, 0⟩, ⟨0, 0⟩] }
def signature : List Byte := 9 :: zeros 127
def file3 (kind : Byte) (len : Word) : ManifestFile :=
  { bytes := [0x31, 0x4D, 0x57, 0x4C, 1, 0, kind, 0, 1, 0, 0, 0, kind, 0, 0, 0, 1] ++ zeros 111 ++ zeros 4 ++ bytesLE 4 len.toNat ++ [77] ++
      zeros 55 ++ [1] ++ zeros 63 ++ signature
    sigValid := true }
def manifest3 (kind : Byte) : ManifestData := manifestOf (file3 kind 3) 384
def bigManifest : ManifestData := manifestOf (file3 1 1088) 384
/-- Partition 0 holds an image for that manifest, with an adapter layout of one group. -/
def modelImage : ImageData :=
  { (default : ImageData) with
    header := { (default : ImageHeader) with manifestDigest := (manifest3 0).digest }
    weights := { lines := [], layout := some ⟨1, 1, 0⟩, adapters := [] } }
theorem test_manifest_file : (manifest3 0).shards = [shard3] ∧ (manifest3 1).vocab = 1 ∧ (manifest3 0).layers = 1 ∧
    (manifest3 0).keyId = 9 ∧ (manifest3 0).reservedZero = true ∧ (manifestOf (file3 0 3) 256).shards = [] := by decide +kernel
/-- One adapter record of shard 0, whose one line of packing 0 does not fit 3 bytes; none does, so that the shard is large. -/
def adapterImage : ImageData :=
  { modelImage with weights := { lines := [], layout := some ⟨1, 1, 0⟩, adapters := [{ group := 0, shard := 0, offset := 0, tile := 0, line := 0, count := 1 }] } }
def loading (w : Nat) (img : ImageData) (R : RndWin) (L : Option Load) : State :=
  { enrolled with parts := [(0, { image := some img })], rnd := [(w, { R with load := L, len := 384 })], vifs := [(3, { partMask := 1 })] }

theorem witness_LoadsStart :
    (let s := loading 0 modelImage {} none
     let P := s.part 0
     (s.rn 0).len.toNat = 384 ∧ (s.rn 0).busy = false ∧ P.image.map (·.weights) = some modelImage.weights ∧ P.loaded = true ∧ P.role ≠ 2 ∧ manifestStatus s (manifest3 0) 0 = none ∧
     recordsFit (manifest3 0) (modelImage.weights.lines.map fun x => (x.shard, x.offset, x.packing, x.count)) = true ∧
     P.currentGen = none ∧ P.gen false = none ∧ P.namesCopy false = false ∧ stillWritten s 0 none false = false ∧
     mastersFit s (manifest3 0) = true) ∧
    (manifest3 0).digest = modelImage.header.manifestDigest ∧ ((loading 0 modelImage {} none).part 0).image = some modelImage ∧
    (let s := loading 3 adapterImage {} none
     let P := s.part 0
     (s.rn 3).busy = false ∧ (s.vif 3).partMask.getLsbD 0 = true ∧ (P.slot 0).owner = none ∧ P.image.map (·.weights) = some adapterImage.weights ∧
     P.loaded = true ∧ P.role ≠ 2 ∧ manifestStatus s bigManifest 1 = none ∧ adapterImage.weights.layout = some ⟨1, 1, 0⟩ ∧
     bigManifest.vocab ≤ 64 ∧ (∀ i, i < 1 → ∃ a ∈ adapterImage.weights.adapters, a.shard = i ∧ a.group = 0 % 1) ∧
     bigManifest.shards.length = 1 ∧
     recordsFit bigManifest ((adapterImage.weights.adapters.filter fun a => a.group == 0 % 1).map
       fun a => (a.shard, a.offset, 0, a.count)) = true ∧
     (P.slot 0).current = none ∧ (P.slot 0).gen false = none ∧ P.namesSlot 0 false = false ∧
     stillWritten s 0 (some 0) false = false ∧ mastersFit s bigManifest = true) ∧
    (∀ j ∈ [none, some 4], let L : Load := { part := 0, slot := j, copy := false, man := default, shards := [] }
     ((loading 3 default { busy := true } (some L)).rn 3).load = some L ∧
     ((loading 3 default { busy := true } (some L)).rn 3).busy = true) ∧
    (let s := loading 3 default {} none
     (s.rn 3).load = none ∧ (s.rn 3).busy = false ∧ unswitched s 3 = none) ∧
    (let s : State := { loading 3 default {} none with parts := [(0, { slots := [(0, { owner := some 3 })] })] }
     (s.rn 3).busy = false ∧ (s.vif 3).partMask.getLsbD 0 = true ∧ ((s.part 0).slot 0).owner = some 3 ∧ s.recovery = false) ∧
    (∀ e ∈ (manifest3 0).shards, ∀ src ∈ e.sources, src.kind ≠ 2) := by
  refine ⟨?_, rfl, rfl, ?_, ?_, ?_, ?_, ?_⟩ <;> decide +kernel

/-- A manifest of one shard of 3 bytes whose digest is d. -/
def manWith (d : BitVec 384) : ManifestData := { (default : ManifestData) with shards := [{ shard3 with digest := d }] }
/-- A load of it with its shard in a state, n lines to be written, and what the Roundhouse holds. -/
def shardRuns (d : BitVec 384) (x : ShardRun) (n : Nat) (H : Roundhouse) : State :=
  { loading 0 modelImage { busy := true } (some { part := 0, slot := none, copy := false, man := manWith d, shards := [x], lines := n }) with
    house := H }

theorem next_ne (d : BitVec 384) : d ≠ d + 1 := by
  intro h
  have := congrArg BitVec.toNat h
  simp only [BitVec.toNat_add] at this
  have := d.isLt
  simp at *

theorem witness_ShardsArrive :
    (∀ n ∈ [1, 4, 5], ∃ L x, let s := shardRuns 77 { st := .fetching, attempts := n } 0 {}
      (s.rn 0).load = some L ∧ L.shards[0]? = some x ∧ L.man.shards[0]? = some shard3 ∧ x.st = .fetching ∧ x.attempts = n ∧
      loadPaused s L = false ∧ (takeEngine s 0 0).isSome = true ∧ s.goodMaster shard3.digest = false) ∧
    [1, 2, 3].length = shard3.length ∧ [1, 2].length ≠ shard3.length ∧
    takeEngine { State.reset with house := { engines := (List.range 64).map fun k => (k, some (9, k)) } } 0 0 = none := by
  refine ⟨?_, rfl, by decide, by decide +kernel⟩
  intro n hn
  exact ⟨_, _, rfl, rfl, rfl, rfl, rfl, rfl, rfl, rfl⟩

/-- The digest of the bytes fetched, and another. -/
theorem witness_ShardsHash : ∀ n ∈ [0, 1], ∀ d, ∃ L x, let s := shardRuns d { st := .hashing, bytes := [1, 2, 3] } n { engines := [(63, some (0, 0))], masters := [⟨d, [1, 2, 3], false, 0⟩] }
    (s.rn 0).load = some L ∧ L.shards[0]? = some x ∧ L.man.shards[0]? = some { shard3 with digest := d } ∧ x.st = .hashing ∧
    x.attempts < 5 ∧ loadPaused s L = false ∧ FMap.get none s.house.engines 63 = some (0, 0) ∧
    s.goodMaster d = false ∧ x.bytes = [1, 2, 3] ∧ L.lines = n ∧ L.slot = none ∧
    (∀ y ∈ L.shards.set 0 { x with st := .good, bytes := [] }, y.st = .good) ∧
    Config.sha384 [1, 2, 3] ≠ Config.sha384 [1, 2, 3] + 1 := by
  intro n _ d
  exact ⟨_, _, rfl, rfl, rfl, rfl, by simp, rfl, rfl, by simp [State.goodMaster, shardRuns], rfl, rfl, rfl, by simp, next_ne _⟩

/-- A resident weight generation whose one shard has digest d, its master held, and a repair of shard n of it open. -/
def resident (d : BitVec 384) (n : Nat) : State :=
  { State.reset with
    parts := [(0, { image := some modelImage, copy0 := some { no := 1, man := manWith d, window := 0, switched := true } })]
    house := { masters := [⟨d, [1, 2, 3], true, 0⟩]
               repairs := [{ part := 0, slot := none, copy := false, shard := n, digest := d, refetch := false, lines := true, start := 0, stop := 0 }] } }

theorem resident_master (d : BitVec 384) (n : Nat) : (resident d n).master d = some ⟨d, [1, 2, 3], true, 0⟩ := by
  simp [State.master, resident]

/-- No record covers the shard, so that its lines hold what its master holds (log entry 27). -/
theorem resident_lines (d : BitVec 384) : waferShard (resident d 1) 0 none false 0 { shard3 with digest := d } = [1, 2, 3] := by
  unfold waferShard
  simp only [resident_master]
  rfl

theorem witness_ShardsAreScrubbed :
    (∀ d, ((residentManifest ((resident d 1).part 0) none false).bind fun m => m.shards[0]?) = some { shard3 with digest := d }) ∧
    (∀ r ∈ (resident 77 1).house.repairs, r.shard ≠ 0) ∧ (∀ k ∈ [62, 63], FMap.get none (resident 77 1).house.engines k = none) ∧
    visitDue (badgerRound (resident 77 1)) (0, none, false, 0) = true ∧
    visitDue (badgerRound { resident 77 1 with house := { visited := [(0, none, false, 0)] } }) (0, none, false, 0) = false ∧
    (let d := Config.sha384 [1, 2, 3]
     Config.sha384 (waferShard (resident d 1) 0 none false 0 { shard3 with digest := d }) = d ∧ (resident d 1).masterHolds d = true) ∧
    (let d := Config.sha384 [1, 2, 3] + 1
     Config.sha384 (waferShard (resident d 1) 0 none false 0 { shard3 with digest := d }) ≠ d ∧ (resident d 1).masterHolds d = false) ∧
    (∃ r, let s := resident 77 0
       s.house.repairs.find? (fun r => r.part == 0 && r.lines && !r.refetch) = some r ∧ r.slot = none ∧
       (s.part 0).namesCopy r.copy = false ∧ (s.part 0).rstate = 0 ∧ (∀ q ∈ s.house.repairs, q.part = 0 → q.left = none) ∧
       ((residentManifest (s.part 0) none r.copy).bind fun m => m.shards[r.shard]?) = some { shard3 with digest := 77 } ∧
       s.goodMaster 77 = true ∧ s.house.reports.length < 16) ∧
    (∀ n ∈ [0, 1], let Q : Report := { part := 0, adapter := false, shard := 0, gen := 1, no := 0, start := 0, stop := 1,
                                        rows := (List.range 300).map fun r => (r : Nat), written := n }
     let s : State := { State.reset with
       host := { up := true }, vifs := [(0, { busMaster := true })], house := { log := { log2size := 4, enable := true }, reports := [Q] } }
     let g := s.house.log
     let all := (rowGroups (Q.rows.length + 1) Q.rows).length
     s.house.reports = Q :: [] ∧ g.enable = true ∧ hostReady s 0 = true ∧
     min (all - Q.written) (2 ^ logSize g - (g.produced - g.consumed).toNat) ≠ 0) := by
  refine ⟨fun d => rfl, by decide, by decide, by decide +kernel, by decide +kernel, ⟨?_, ?_⟩, ⟨?_, ?_⟩,
    ⟨_, rfl, rfl, by decide +kernel, by decide +kernel, by decide +kernel, by decide +kernel, by decide +kernel, by decide⟩, by decide +kernel⟩
  · rw [resident_lines]
  · simp [State.masterHolds, resident]
  · rw [resident_lines]; exact next_ne _
  · simp only [State.masterHolds, resident, List.any_cons, List.any_nil, BEq.rfl, Bool.true_and, Bool.or_false, beq_eq_false_iff_ne]
    exact next_ne _

/-! ### Witnesses: links, hall time and the host port -/

/-- Port n in a state of its own, and the hall unit's. -/
def linked (n : Nat) (L : LinkPort) (H : HallUnit) : State := { State.reset with ports := [(n, L)], hall := H }

theorem witness_PortsTrainAndFall :
    (∀ n ∈ [0, 47], ∀ st ∈ [1, 2, 3, 4], ((linked n { state := st } {}).port n).state = st ∧
      ((linked n { state := st } {}).port n).enable = true) ∧
    (linked 0 {} {}).hall.state ≠ 2 ∧ (linked 0 {} {}).sufinDown = false ∧ (linked 0 {} {}).recovery = false ∧
    (∀ kv ∈ (linked 0 {} {}).ports, kv.2.thru = []) ∧
    (let s := linked 47 { swapFrame := 1 } { now := 65536 * 65536 }
     (s.port 47).swapFrame ≠ 0 ∧ (s.port 47).swapFrame.toNat ≤ s.ns / 65536 ∧ (s.port 47).swapLate ≤ s.ns / 65536) := by decide

theorem witness_SlotsCarryCells :
    (State.reset.recovery = false ∧ ({ State.reset with recovery := true } : State).recovery = true) ∧
    (∀ k ∈ [(1 : BitVec 2), 2], let s := linked 0 { state := 3, tableA := [(1, { kind := k })] } { now := 64 * 65536 }
     (s.port 0).state = 3 ∧ (s.port 0).opened ≠ s.slotNow + 1 ∧ s.hall.timetable = false ∧
     (((s.port 0).entry (s.slotNow % 1024)).kind = 1 ∨ ((s.port 0).entry (s.slotNow % 1024)).kind = 2)) ∧
    (let L := (linked 0 { slotSel := 0xBFF, owners := [(1023, some 15)] } {}).port 0
     (L.slotSel.extractLsb' 0 10).toNat = 1023 ∧ 1023 % 32 ≠ 0 ∧ L.slotSel.getLsbD 11 ≠ L.active ∧ L.swapFrame = 0 ∧
     (0xFE000000 : Word).extractLsb' 30 2 = 3 ∧
     FMap.get none L.owners 1023 = (if (0xFE000000 : Word).getLsbD 29 then some ((0xFE000000 : Word).extractLsb' 25 4).toNat else none) ∧
     (0x3E000000 : Word).extractLsb' 30 2 = (0 : BitVec 2) ∧
     (if (0x3E000000 : Word).getLsbD 29 then some ((0x3E000000 : Word).extractLsb' 25 4).toNat else none) ≠ some 14 ∧
     shareFree State.reset (some 14) = true ∧ shareFree { State.reset with parts := [(14, loadedPart)] } (some 14) = false ∧
     (0x7E000000 : Word).extractLsb' 30 2 = 1 ∧ (0xBE000000 : Word).extractLsb' 30 2 = 2 ∧ (0xBE000000 : Word).getLsbD 29 = true) ∧
    (let L := (linked 0 { slotSel := 1 } {}).port 0
     (L.slotSel.extractLsb' 0 10).toNat % 32 ≠ 0 ∧ L.slotSel.getLsbD 11 = L.active) ∧
    (let s := linked 0 { state := 3, tableA := [(1, { kind := 1 })], owners := [(1, some 5)], queues := [(5, [default])] }
       { timetable := true, addr := 9, now := 64 * 65536 }
     (s.port 0).state = 3 ∧ (s.port 0).opened ≠ s.slotNow + 1 ∧ s.hall.timetable = true ∧ s.hall.addr ≠ 0 ∧
     ((s.port 0).entry (s.slotNow % 1024)).kind = 1 ∧ FMap.get none (s.port 0).owners (s.slotNow % 1024) = some 5) ∧
    (linked 0 { opened := 1 } {}).port 0 = { opened := (linked 0 { opened := 1 } {}).slotNow + 1 } ∧
    (({ thru := [{ slot := 1, since := 5, cell := default }] } : LinkPort).thru.find? fun t =>
      t.since + 16 ≤ (linked 0 {} { now := 21 * 64 * 65536 }).slotNow).isSome = true := by
  decide +kernel

/-- A gate tile of partition 0 with a whole outbound SEND, its image's route entries, and port 47. -/
def gated (rs : List RouteRec) (L : LinkPort) : State :=
  { State.reset with
    ports := [(47, L)]
    tiles := [(0, { Tile.reset with outbound := [{ (default : Outbound) with g0 := outboundBase }] })]
    parts := [(0, { gate := t00, image := some { (default : ImageData) with outRoutes := rs } })] }

/-- The 88 bytes in which 18 words arrive with their check bits. -/
def rawOf (ws : List Word) : BitVec 704 :=
  (BitVec.ofBoolListLE ((List.range 704).map fun i => if i < 576 then (ws.getD (i / 32) 0).getLsbD (i % 32)
    else (Config.secded (ws.getD ((i - 576) / 7) 0)).getLsbD ((i - 576) % 7))).setWidth 704

theorem rawOf_bit (ws : List Word) (i : Nat) (h : i < 704) : (rawOf ws).getLsbD i =
    if i < 576 then (ws.getD (i / 32) 0).getLsbD (i % 32) else (Config.secded (ws.getD ((i - 576) / 7) 0)).getLsbD ((i - 576) % 7) := by
  rw [rawOf, BitVec.getLsbD_setWidth, BitVec.getLsbD_ofBoolListLE]
  simp [h]

theorem mapM_some {α β : Type} (f : α → Option β) (g : α → β) : ∀ l : List α, (∀ x ∈ l, f x = some (g x)) → l.mapM f = some (l.map g)
  | [], _ => rfl
  | x :: l, h => by
    have h1 := h x List.mem_cons_self
    have h2 := mapM_some f g l fun y hy => h y (List.mem_cons_of_mem _ hy)
    simp [List.mapM_cons, h1, h2]

theorem received_rawOf (ws : List Word) : cellReceived (rawOf ws) = some (cellOf ((List.range 18).map fun i => ws.getD i 0)) := by
  unfold cellReceived
  rw [mapM_some _ (fun i => ws.getD i 0)]
  · rfl
  · intro i hi
    have hi : i < 18 := List.mem_range.mp hi
    have hw : (rawOf ws).extractLsb' (32 * i) 32 = ws.getD i 0 := by
      ext j hj
      rw [BitVec.getElem_extractLsb', rawOf_bit _ _ (by omega)]
      simp only [show 32 * i + j < 576 by omega, if_true, show (32 * i + j) / 32 = i by omega, show (32 * i + j) % 32 = j by omega]
      exact BitVec.getLsbD_eq_getElem hj
    have hk : (rawOf ws).extractLsb' (576 + 7 * i) 7 = Config.secded (ws.getD i 0) := by
      ext j hj
      rw [BitVec.getElem_extractLsb', rawOf_bit _ _ (by omega)]
      simp only [show ¬ 576 + 7 * i + j < 576 by omega, if_false, show (576 + 7 * i + j - 576) / 7 = i by omega,
        show (576 + 7 * i + j - 576) % 7 = j by omega]
      exact BitVec.getLsbD_eq_getElem hj
    simp [hw, hk, fixWord]

/-- A cell arrives as its words and their check bits. -/
theorem cell_arrives (c : Cell) (h : cellOf ((List.range 18).map fun i => (cellWords c).getD i 0) = c) :
    cellReceived (rawOf (cellWords c)) = some c := by
  rw [received_rawOf, h]

theorem witness_CellsArrive : ∀ c ∈ [(default : Cell), { (default : Cell) with destHall := 7, kind := 5 }, { (default : Cell) with destHall := 7, kind := 1 }],
    cellReceived (rawOf (cellWords c)) = some c := by
  intro c hc
  refine cell_arrives c ?_
  revert c
  decide +kernel

theorem witness_CellsCross :
    -- a codeword that cannot be read at its first place, and a retransmission's that has been spoiled once or twice
    (∀ raw, ∀ b ∈ [false, true], let x : CellNote := { codeword := true, again := b }
      x.codeword = true ∧ (((spoiledHeader raw x).map fun w => cellOf [w]).map (·.retx)).getD x.again = b) ∧
    (∀ n ∈ [1, 2], let L := (linked 47 { state := 3, spoiled := [{ frame := 65535, slot := 1023, idx := 127, times := n }] } {}).port 47
      L.state = 3 ∧ L.spoiled = { frame := 65535, slot := 1023, idx := 127, times := n } :: []) ∧
    -- a cell for another module, with one held for another partition, from a peer in the hall's plan and one that is not
    (let c : Cell := { (default : Cell) with destHall := 7, kind := 5 }
     let L := (linked 47 { state := 3, waiting := [.cell 4 default] } { addr := 9 }).port 47
     L.state = 3 ∧ dueOf L.waiting = [] ∧ (default : Cell).kind = 0 ∧ (default : Cell).retx = false ∧ c.retx = false ∧ c.kind ≠ 0 ∧ c.kind ≠ 6 ∧
     c.kind ≠ 7 ∧ c.destHall ≠ 0 ∧ c.destHall ≠ (linked 47 {} { addr := 9 }).hall.addr ∧
     ({} : CellNote).planned = true ∧ ({} : CellNote).codeword = false ∧ ({ planned := false } : CellNote).codeword = false ∧
     (∀ kv ∈ (linked 47 L {}).ports, kv.2.state = 1 → kv.2.claims 47 0 = false)) ∧
    (let s : State := { linked 0 { state := 3 } { addr := 7 } with parts := [(0, loadedPart)] }
     let c : Cell := { (default : Cell) with destHall := 7, kind := 1 }
     (s.port 0).state = 3 ∧ dueOf (s.port 0).waiting = [] ∧ c.retx = false ∧ c.kind = 1 ∧ s.hall.addr ≠ 0 ∧ c.destHall = s.hall.addr ∧
     tileAt c.target.toNat = some t00 ∧ (s.part c.destPart.toNat).loaded = true) ∧
    (let x : SentCell := { frame := 65535, slot := 1023, idx := 127, cell := .nak 0 0 0 }
     let L : LinkPort := { state := 3, sent := [x], lastSlots := [(65535, 1023)] }
     L.sentAt 65535 1023 127 = some x.cell ∧ L.sentAt 65535 1023 126 = some (.idle false) ∧ L.sentAt 0 0 0 = none) ∧
    (let r : RouteRec := { (default : RouteRec) with port := 47 }
     ∀ L ∈ [({ state := 3 } : LinkPort), { state := 1 }, { state := 3, backlog := [(0, [default])] }], ∀ rs ∈ [[], [r]], let s := gated rs L
       ((s.tile (s.part 0).gate).outbound.find? fun o => o.got.length == o.n).isSome = true ∧
       (∀ o ∈ (s.tile (s.part 0).gate).outbound, ((s.part 0).image.bind fun img =>
         img.outRoutes.find? fun r => r.index == o.g0 - outboundBase) = rs.head?) ∧
       ((s.port 47).state = 1 ∨ (s.port 47).state ≠ 1) ∧ ((s.port 47).backlogOf 0 = [] ∨ (s.port 47).backlogOf 0 ≠ []) ∧
       (s.port 47).queue 0 = [] ∧ (tileCells r []).length ≤ 1024 ∧ (s.tile (s.part 0).gate).faultInfo = 0) ∧
    (let r : RouteRec := { (default : RouteRec) with port := 47 }
     let s := gated [r] { state := 3, queues := [(0, List.replicate 1024 default)] }
     (s.port 47).backlogOf 0 = [] ∧ ¬ ((s.port 47).queue 0).length + (tileCells r []).length ≤ 1024) := by
  refine ⟨?_, by decide, by decide, by decide +kernel, by decide, by decide +kernel, by decide +kernel⟩
  intro raw b _
  exact ⟨rfl, rfl⟩

/-- A time cell that completes the exchange of this port's marker 3, and one that completes none. -/
def timeCell (depth : Nat) : TimeMsg := { t1 := 0, age := 0, back := some (3, 5), depth := depth, hall := 9, port := 63 }

theorem only_port (L : LinkPort) (H : HallUnit) : ∀ q, q ≠ 0 → ((linked 0 L H).port q).state ≠ 3 := by
  intro q hq
  simp [linked, State.port, FMap.get, hq.symm]

theorem witness_HallTimeIsKept :
    -- a time cell: its port down and up, no exchange and one, a root and none
    ((linked 47 { state := 2 } {}).port 47).state ≠ 3 ∧
    (let s := linked 47 { state := 3 } { root := true }
     (s.port 47).state = 3 ∧ s.hall.root = true ∧ ({ timeCell 0 with back := none } : TimeMsg).back = none ∧ (timeCell 0).depth = 0 ∧
     (timeCell 1).depth ≠ 0) ∧
    (∀ st ∈ [1, 2], let s := linked 0 { state := 3, markers := [65539] } { state := st, refOn := true, upstream := 0 }
     (s.port 0).state = 3 ∧ (timeCell 14).back = some (3, 5) ∧
     ((s.port 0).markers.find? fun F => decide (F % 65536 = (3 : BitVec 16).toNat)) = some 65539 ∧ s.hall.root = false ∧
     (timeCell 14).depth < 15 ∧ s.hall.state = st ∧ s.hall.stepped = false ∧ s.hall.refOn = true ∧ s.hall.upstream = 0) ∧
    (∀ L H q, q ≠ 0 → ((linked 0 L H).port q).state ≠ 3) ∧
    -- an edge: before lock, at a root in each state, at another module far from a second and near one
    State.reset.hall.refOn = false ∧
    (∀ st ∈ [0, 1, 2, 3], let H : HallUnit := { refOn := true, root := true, state := st }
      H.refOn = true ∧ H.root = true ∧ H.state = st) ∧
    (∀ n ∈ [5, 6], let H : HallUnit := { refOn := true, now := n * 65536 }
     H.refOn = true ∧ H.root = false ∧
     min (H.now % (1000000000 * 65536)) (1000000000 * 65536 - H.now % (1000000000 * 65536)) = n * 65536) ∧
    -- loss of the reference, and the end of holdover on its ns and before it
    (∀ st ∈ [0, 1, 2, 3], (linked 0 {} { state := st }).hall.state = st) ∧
    (∀ n ∈ [0, 1], let s := linked 0 {} { state := 3, timetable := true, holdover := 1, since := n, now := 1000000 * 65536 }
     s.hall.state = 3 ∧ s.hall.timetable = true ∧
     (if n = 0 then s.hall.since + 1000000 * max 1 (min 200 s.hall.holdover) ≤ s.ns
      else s.ns < s.hall.since + 1000000 * max 1 (min 200 s.hall.holdover))) := by
  refine ⟨by decide, by decide, by decide, fun L H => only_port L H, by decide, by decide, by decide, by decide, by decide⟩

theorem witness_HostPortComesAndGoes :
    (FMap.wf {} State.reset.vifs = true ∧ State.reset.host.up = false ∧ State.reset.host.wasUp = false) ∧
    (∃ h : HostPort, h.up = true ∧ h.wasUp = true) ∧ (∃ h : HostPort, h.up = false ∧ h.wasUp = true) ∧
    (State.reset.vif 127).busMaster = false ∧ ({ fn := 127 } : ConfigWrite).busMaster = true ∧ ({ fn := 127 } : ConfigWrite).d3hot = false ∧
    (∀ x ∈ [({ busMaster := true } : Vif), { busMaster := true, d3hot := true }], (({ State.reset with vifs := [(127, x)] } : State).vif 127).busMaster = true ∧
      (({ State.reset with vifs := [(127, x)] } : State).vif 127).d3hot = x.d3hot) ∧
    (∀ b ∈ [false, true], let h : HostPort := { pended := [(64 * 127 + 63, b)] }
      FMap.get false h.pended (64 * 127 + 63) = b ∧ ({ vec := 63, mask := b } : VectorWrite).mask = b) ∧
    (let s : State := { State.reset with
       rows := [(8191, { state := 5, owner := 127 })], handles := [(1, { live := true, owner := 127 }), (2, { live := true })] }
     FMap.wf {} s.rows = true ∧ FMap.wf {} s.handles = true ∧ (s.row 8191).owner = 127 ∧ (s.row 8191).state ≠ 0 ∧ (s.row 0).owner ≠ 127 ∧
     (s.handle 1).live = true ∧ (s.handle 1).owner = 127 ∧ (s.handle 2).owner ≠ 127) := by
  refine ⟨by decide, ⟨{ up := true, wasUp := true }, rfl, rfl⟩, ⟨{ wasUp := true }, rfl, rfl⟩, by decide, rfl, rfl, by decide, by decide, by decide⟩

/-! ### Witnesses: faults, power, sensing and bring-up -/

/-- A partition error of class 0x11 in region 143. -/
def stepError : ErrEvent := { (default : ErrEvent) with cls := 0x11, part := some 0, region := some 143 }
/-- A queued record of a class for partition 0. -/
def queued (cls : Byte) : FltRec :=
  { time := 0, cls := cls, part := some 0, region := none, tile := 0, detail := 0, step := 0, loc := 0 }
def onePart (P : Partition) : State := { State.reset with parts := [(0, P)] }
/-- The same with region 0, which is the partition's, in service. -/
def inService (P : Partition) : State := { onePart P with regions := [(0, { inService := true })] }
/-- A partition with a weight generation whose shard has a line on tile (0, 0). -/
def modelPart : Partition :=
  { image := some { modelImage with
      weights := { lines := [{ packing := 0, area := 0, shard := 0, offset := 0, tile := 0, line := 0, count := 1 }], layout := none, adapters := [] } }
    copy0 := some { no := 1, man := manWith 77, window := 0, ready := true, switched := true } }
/-- A partition of region 0 in a recovery, of whose generation a line lies on tile (0, 0). -/
def repairing : Partition :=
  { modelPart with recovering := true, width := 1, height := 1 }

theorem witness_ErrorsHoldAndRecover :
    (({ State.reset with sufinDown := true } : State).sufinDown = true ∧ State.reset.sufinDown = false ∧
     ({ State.reset with sufinDown := true } : State).heldEvents.any (fun x => sameUnit stepError x.ev) = false ∧
     [({ ev := stepError, time := 0, step := 0 } : HeldEvent)].any (fun x => sameUnit stepError x.ev) = true) ∧
    -- an event of no partition, one that a master's word raised, and one of a tile
    (∃ e : ErrEvent, e.part = none ∧ stepClass e.cls = false ∧ haltClass e.cls = false ∧ regionClass e.cls = false ∧
      ∀ d, e.found = .master d → e.cls ≠ 0x40) ∧
    (∃ e : ErrEvent, e.part = none ∧ stepClass e.cls = false ∧ haltClass e.cls = false ∧ regionClass e.cls = false ∧
      e.found = .master 77 ∧ e.cls = 0x40) ∧
    (shardOf (onePart modelPart) 77).isSome = true ∧
    (regionClass stepError.cls = false ∧ stepError.found = .none) ∧
    (let s := onePart loadedPart
     stepError.part = some 0 ∧ stepError.region = some 143 ∧ stepClass stepError.cls = true ∧ (s.part 0).loaded = true ∧
     (s.part 0).rstate = 0 ∧ s.fltQ.length < 16 ∧ FMap.get none s.strikes 143 = none) ∧
    -- a record that starts a recovery, and one that halts, with a partition beside it that a full queue has halted
    (∀ cls ∈ [0x11, 0x20], let s := { onePart loadedPart with
       parts := [(0, loadedPart), (15, { loadedPart with rstate := 3, cause := 1 })], fltQ := [queued cls] }
     (s.fltQ.find? fun x => x.state == 0 && (match x.part with
        | some p => !(s.part p).recovering
        | none => true)) = some (queued cls) ∧ (queued cls).part = some 0 ∧ s.untold = 0 ∧ (s.part 0).rstate ≠ 3 ∧ (s.part 0).loaded = true ∧
     (if cls = 0x11 then stepClass cls = true ∧ (s.part 0).streak + 1 < 4 else haltClass cls = true) ∧
     s.fltQ.filter (fun y => !(y.part == some 0)) = [] ∧ (s.part 15).rstate = 3 ∧ (s.part 15).cause = 1) ∧
    -- a purge that ends a recovery, and one that waits for a master that is not there
    (let s := { inService { loadedPart with recovering := true } with fltQ := [queued 0x11] }
     (s.part 0).recovering = true ∧ lossVerdict s 0 = .ok none ∧ (s.part 0).owed = [] ∧
     ∀ x ∈ s.fltQ.filter (fun x => x.part == some 0), stepClass x.cls = true ∧ x.cls ≠ 0x10) ∧
    (let s := { inService repairing with fltQ := [queued 0x10] }
     let mine := s.fltQ.filter fun x => x.part == some 0
     (s.part 0).recovering = true ∧ lossVerdict s 0 = .ok none ∧ (∀ x ∈ mine, haltClass x.cls = false) ∧
     mastersDue (purge s 0) 0 (mine ++ (s.part 0).owed) none ≠ []) ∧
    ((onePart loadedPart).part 0).recovering = false ∧
    (∀ c ∈ [1, 8], let P := (onePart { loadedPart with rstate := 3, cause := c }).part 0
      P.recovering = false ∧ P.rstate = 3 ∧ P.cause ∈ [1, 2, 3, 4, 7, 8]) ∧
    ((onePart loadedPart).recovery = false ∧ ({ State.reset with recovery := true } : State).recovery = true) := by
  refine ⟨by decide, ⟨{ (default : ErrEvent) with cls := 0x02 }, ?_⟩, ⟨{ (default : ErrEvent) with cls := 0x40, found := .master 77 }, ?_⟩, ?_, ?_,
    ?_, ?_, ⟨by decide, rfl, by decide, by decide⟩, ⟨by decide, rfl, by decide, by decide +kernel⟩, ?_, ?_, ?_⟩
  · refine ⟨rfl, by decide, by decide, by decide, ?_⟩
    intro d h
    cases h
  all_goals decide +kernel

/-- Every region but r has both its clock feeds, and no line is on its way to region r. -/
theorem lone_quiet (P : Partition) (hp : P.pageOut = []) (hw : P.weightOut = []) (r : Nat) (R : Region) :
    let s : State := { onePart P with regions := [(r, R)] }
    (∀ q, q ≠ r → (s.region q).deadA = false ∧ (s.region q).deadB = false) ∧
    FMap.wf Tile.reset s.tiles = true ∧ (∀ t, regionOf t = r → (s.tile t).low = []) ∧
    ∀ p, ∀ f ∈ (s.part p).pageOut ++ (s.part p).weightOut, regionOf f.dst ≠ r := by
  refine ⟨fun q h => ?_, rfl, fun t _ => rfl, fun p f h => ?_⟩
  · simp [State.region, FMap.get, h.symm]
  · have e : (({ onePart P with regions := [(r, R)] } : State).part p).pageOut = [] ∧
        (({ onePart P with regions := [(r, R)] } : State).part p).weightOut = [] := by
      by_cases h0 : p = 0 <;> simp [State.part, FMap.get, onePart, h0, hp, hw, eq_comm]
    rw [e.1, e.2] at h
    cases h

theorem witness_SinglePartsFail :
    (let s := onePart { loadedPart with width := 1, height := 1 }
     s.sufinDown = false ∧ FMap.wf {} s.parts = true ∧ partOfRegion s 143 = none ∧ (s.region 143).lostBy = 0 ∧ s.fltQ.length < 16) ∧
    (∀ c ∈ [(0x31 : Nat), 0x32, 0x33], let s : State := { State.reset with regions := [(143, { lostBy := c })] }
      (s.region 143).lostBy ≠ 0 ∧ (s.region 143).lostBy ≠ 0x30) ∧
    (let s := onePart { loadedPart with width := 12, height := 12 }
     partOfRegion s 143 = some 0 ∧ FMap.wf {} s.parts = true ∧ (s.part 0).loaded = true ∧ (s.part 0).rstate = 0 ∧ (s.part 0).streak < 3 ∧
     s.fltQ.length < 16) ∧
    -- both feeds of a region, and either alone
    ((State.reset.region 0).deadA = false ∧ (State.reset.region 0).deadB = false ∧ (State.reset.region 0).onB = false) ∧
    (∀ b ∈ [false, true], let s : State := { State.reset with regions := [(0, { deadA := b, deadB := !b, onB := b })] }
      let R := s.region 0
      let other := fun (b : Bool) => if b then R.deadB else R.deadA
      other R.onB = false ∧ other (!R.onB) = true ∧ R.lostBy = 0 ∧ partOfRegion s 0 = none) ∧
    -- stacks in and out, with masters
    ((State.reset.unit 167).out = false ∧ (({ State.reset with heat := [(144, { out := true })] } : State).unit 144).out = true ∧
      ∃ m ∈ (resident 77 0).house.masters, m.home = 0) ∧
    ({ State.reset with sufinDown := true } : State).sufinDown = true := by
  refine ⟨by decide, by decide, by decide, by decide, by decide, ⟨by decide, by decide, ⟨_, List.mem_singleton.mpr rfl, rfl⟩⟩, by decide⟩

theorem witness_PowerIsGoverned :
    (∃ g : GovReading, g.inletA < 0 ∧ g.inletB < 0) ∧
    (∃ g : GovReading, 0 ≤ g.inletA ∧ g.inletA ≤ g.inletB ∧ g.inletB ≤ 1600) ∧
    State.reset.gov.shutdown = false ∧ ({ shutdown := true } : Gov).shutdown = true ∧ State.reset.gov.level ≤ 15 ∧
    28500 < 28501 ∧ 28500 ≤ 28500 ∧ FMap.wf {} State.reset.parts = true ∧ State.reset.gov.carrier = none ∧
    1000 * linesRead State.reset (fun _ => true) ≤ State.reset.gov.duty * fullWindow ∧
    -- a window in which partition 0 read every line
    (let s : State := { onePart loadedPart with tiles := [(0, { Tile.reset with part := some 0, reads := fullWindow })] }
     (∀ kv ∈ s.tiles, kv.2.reads ≠ 0 → kv.2.part.isSome = true) ∧ FMap.wf Tile.reset s.tiles = true ∧ FMap.wf {} s.parts = true ∧
     (s.part 0).loaded = true ∧ (s.part 0).frozen = false ∧
     0 < (((dutyHolds s 0).find? fun a => a.1 == 0).map (·.2)).getD 0 + thermalClk s 0) ∧
    ({ capUser := 2000 } : Gov).capUser.toNat % 65536 ≠ 0 ∧ (State.reset.unit 0).sumPower < 60000000 * ({ n := 1 } : Heat).n := by
  refine ⟨⟨{ (default : GovReading) with inletA := -1, inletB := -1 }, ?_⟩, ⟨{ (default : GovReading) with inletB := 1600 }, ?_⟩, ?_⟩ <;> decide

theorem witness_ScansAndWear :
    (let X : Sense := State.reset.sense
     X.queue = [] ∧ X.cfg.extractLsb' 0 2 = 0 ∧ edgeSelected X true = false ∧ X.applying = false) ∧
    (let X : Sense := { cfg := 1, queue := [18] }
     edgeSelected X true = true ∧ X.queue ≠ [] ∧ X.queue = 18 :: []) ∧
    (let s : State := { State.reset with sense := { cfg := 1 }, hall := { now := 2000000 * 65536 } }
     s.sense.cfg.extractLsb' 0 2 ≠ 0 ∧ s.sense.lastEdge + 2000000 ≤ s.ns ∧ s.sense.queue = [] ∧ edgeSelected s.sense true = true) ∧
    (let s : State := { State.reset with sense := { cfg := 2 } }
     s.sense.cfg.extractLsb' 0 2 ≠ 0 ∧ s.ns < s.sense.lastEdge + 2000000) ∧
    (let X : Sense := { queue := [0, 5] }
     X.queue = 0 :: [5] ∧ [5] ≠ ([] : List Nat)) ∧
    (1 : Word).getLsbD 0 = true ∧ (0 : Word).getLsbD 0 = false ∧ State.reset.bru.forceOff = false ∧
    ({ forceOff := true } : Bru).forceOff = true := by decide

/-- Regions and fault maps during a bring-up: a phase, the next ring, regions, field entries. -/
def bringing (phase next : Nat) (rs : FMap Region) (field : List FaultEntry) : State :=
  { State.reset with bru := { phase := phase, next := next, field := field }, regions := rs }

theorem witness_BringUp :
    (FMap.wf {} State.reset.heat = true) ∧
    bootSlot { slotA := none } false = none ∧ bootSlot State.reset.sec true = some false ∧
    (let s := bringing 2 5 [] []
     s.bru.next = 5 ∧ s.bru.next ≠ 4 ∧ (s.bru.phase = 1 ∨ s.bru.phase = 2) ∧
     ∀ r ∈ ringRegions 5, ¬ ((5 : Fin 6).val = 0 ∨ ((adjacentRegions r).any fun q => ringOf q == 4 && (s.region q).inService) = true)) ∧
    (∃ r ∈ ringRegions 0, let s := bringing 1 0 [] []
      let b := bringing 1 0 [] [{ kind := 2, cause := 1, a := r, b := 0, time := 0 }]
      s.bru.next = 0 ∧ s.bru.phase = 1 ∧ barred s r coldRetest = false ∧ r ∉ s.bru.kept ∧ columnsOk (mappedOut s r) = true ∧
      barred b r coldRetest = true ∧ regionFails r [] = false) ∧
    (let s := bringing 5 1 [] []
     s.bru.next = 1 ∧ s.bru.phase = 5 ∧ s.bru.phase ≠ 3) ∧
    (bringing 3 0 [] []).bru.phase = 3 := by decide +kernel

theorem witness_WarmRestarts :
    (let B := (bringing 5 6 [] []).bru
     B.phase = 5 ∧ B.next = 6) ∧
    (let B := (bringing 4 0 [] []).bru
     B.phase ≠ 5 ∧ B.warmWaits = false ∧ B.done = false ∧ B.busy = true) ∧
    (∀ q ∈ [false, true], let s : State := { State.reset with bru := { phase := 4, done := true, busy := false }, parts := [(0, { quarantine := q })] }
      s.bru.phase ≠ 5 ∧ s.bru.warmWaits = false ∧ s.bru.done = true ∧ s.bru.busy = false ∧
      if q then ∃ kv ∈ s.parts, kv.2.quarantine = true else ∀ kv ∈ s.parts, kv.2.quarantine = false) ∧
    (let s := inService { loadedPart with rstate := 3, cause := 9 }
     (s.part 0).loaded = true ∧ (s.part 0).cause = 9 ∧ (s.part 0).recovering = false ∧ lossVerdict s 0 = .ok none ∧
     (s.part 0).owed = []) ∧
    (((inService loadedPart).part 0).rstate = 0 ∧ ((inService loadedPart).part 0).loaded = true ∧ ((inService loadedPart).part 0).rstate ≠ 3) := by
  refine ⟨by decide, by decide, ?_, ⟨by decide, by decide, by decide, rfl, by decide⟩, by decide⟩
  decide

/-! ### Witnesses: security, calibration, tiles, registers and the whole module -/

/-- An enrolment command that names this module, byte by byte (Table 14.5): its op, usage, index and counter, and its last 236 bytes. -/
def ownCmd (op usage index : Byte) (n : Nat) (z : List Byte) : EnrolCmd :=
  { bytes := [op, usage, index, 0] ++ bytesLE 8 n ++ bytesLE 8 Config.serial.toNat ++ z, ownerSigOk := true }

theorem fieldAt_serial (op u x : Byte) (n : Nat) (v : DWord) (z : List Byte) :
    BitVec.ofNat 64 (fieldAt ([op, u, x, 0] ++ bytesLE 8 n ++ bytesLE 8 v.toNat ++ z) 12 8) = v := by
  apply BitVec.eq_of_toNat_eq
  have := v.isLt
  simp [fieldAt, bytesAt, bytesLE, natLE, List.range_succ, Nat.shiftRight_eq_div_pow]
  omega

theorem ownCmd_fieldsOk (op usage index : Byte) (n : Nat) (h : usage &&& 0xFC = 0) :
    enrolFieldsOk op (ownCmd op usage index n (zeros 236)) = true := by
  have e : enrolSerial (ownCmd op usage index n (zeros 236)) = Config.serial := fieldAt_serial ..
  have u : enrolUsage (ownCmd op usage index n (zeros 236)) = usage := rfl
  have l : ∀ x, (bytesLE 8 x).length = 8 := fun _ => rfl
  have z : ∀ o k, zeroAt (ownCmd op usage index n (zeros 236)).bytes (20 + o) k = true := by
    intro o k
    simp only [zeroAt, bytesAt, ownCmd, List.all_eq_true, beq_iff_eq, ← List.drop_drop]
    intro x hx
    have hx := List.mem_of_mem_drop (List.mem_of_mem_take hx)
    rw [List.drop_left' (by simp [l])] at hx
    exact List.eq_of_mem_replicate hx
  have z1 := z 113 27
  have z2 := z 0 16
  have z3 := z 16 97
  have z0 : zeroAt (ownCmd op usage index n (zeros 236)).bytes 3 1 = true := rfl
  have o : (ownCmd op usage index n (zeros 236)).bytes.getD 0 0 = op := rfl
  unfold enrolFieldsOk
  simp only [u, e, z0, z1, z2, z3, o, h]
  simp

/-- The module once it has an owner key, and key 4 in entry 31 or not. -/
def owned (ks : FMap (Option Key)) : State := { State.reset with sec := { keys := (0, some { id := 1, usage := 0 }) :: ks } }

theorem witness_SecurityCommands :
    -- fields that are not the op's; no owner; no signature of it; a counter that does not rise; and one that does
    (enrolFieldsOk 2 (ownCmd 1 1 0 0 (zeros 236)) = false ∧
     (∀ op ∈ [(1 : Byte), 2, 3], ∀ i ∈ [(0 : Byte), 1, 31, 32], ∀ n ∈ [0, 1], enrolFieldsOk op (ownCmd op 1 i n (zeros 236)) = true) ∧
     State.reset.sec.owned = false ∧ (owned []).sec.owned = true ∧ ({ ownCmd 1 1 1 1 [] with ownerSigOk := false } : EnrolCmd).ownerSigOk = false ∧
     (enrolCounter (ownCmd 1 1 1 0 [])).toNat ≤ (owned []).sec.counter.toNat ∧ (owned []).sec.counter.toNat < (enrolCounter (ownCmd 1 1 1 1 [])).toNat) ∧
    -- the first owner key and one that is none
    (enrolIndex (ownCmd 1 1 0 0 (zeros 236)) = 0 ∧ enrolCounter (ownCmd 1 1 0 0 (zeros 236)) = 0 ∧
     zeroAt (ownCmd 1 1 0 0 (zeros 236)).bytes 160 96 = true ∧ enrolCounter (ownCmd 1 1 0 1 (zeros 236)) ≠ 0) ∧
    -- a command of each op that the owner signed, with an index that is free, taken or out of range
    (∀ op ∈ [(1 : Byte), 2, 3], ∀ i ∈ [(0 : Byte), 1, 31, 32], ∀ ks ∈ [[], [(31, some { id := 4, usage := 1 })]],
      enrolStatus (owned ks) op (ownCmd op 1 i 1 (zeros 236)) = 0) ∧
    enrolStatus State.reset 3 (ownCmd 3 1 0 1 (zeros 236)) ≠ 0 ∧
    (enrolIndex (ownCmd 1 1 31 1 []) = 31 ∧ enrolIndex (ownCmd 1 1 32 1 []) = 32 ∧ FMap.get none (owned []).sec.keys 31 = none ∧
     (owned []).sec.revoked = [] ∧ FMap.get none (owned [(31, some { id := 4, usage := 1 })]).sec.keys 31 ≠ none) ∧
    -- a loaded partition; recovery mode; bring-up done and not
    ((({ owned [] with parts := [(0, loadedPart)] } : State).part 0).image.isSome = true ∧
     (let s : State := { owned [] with rnd := [(0, { image := some { part := 0, img := default, quarantined := true } })] }
      (s.rn 0).image = some { part := 0, img := default, quarantined := true }) ∧
     State.reset.recovery = false ∧ ({ State.reset with recovery := true } : State).recovery = true ∧
     State.reset.sec.meas = none ∧ ({ meas := some ⟨1, 2, 3⟩ } : Security).meas = some ⟨1, 2, 3⟩) ∧
    -- firmware that is as old as the fuses, older, and that does not verify
    (let fw : FwImage := { verifies := true, secver := 1, digest := 0 }
     fw.verifies = true ∧ ({ fuses := 1 } : Security).fuses ≤ fw.secver.toNat ∧ fw.secver.toNat < ({ fuses := 2 } : Security).fuses ∧
     ({ fw with verifies := false } : FwImage).verifies = false) := by
  have ok : ∀ op ∈ [(1 : Byte), 2, 3], ∀ i ∈ [(0 : Byte), 1, 31, 32], ∀ n : Nat, enrolFieldsOk op (ownCmd op 1 i n (zeros 236)) = true :=
    fun op _ i _ n => ownCmd_fieldsOk op 1 i n (by decide)
  refine ⟨⟨rfl, fun op ho i hi n _ => ok op ho i hi n, by decide, by decide, rfl, by decide, by decide⟩, ⟨rfl, by decide, rfl, by decide⟩, ?_, ?_,
    ⟨rfl, rfl, by decide, by decide +kernel, by decide +kernel⟩, by decide +kernel, by decide⟩
  · intro op ho i hi ks hk
    unfold enrolStatus
    rw [ok op ho i hi 1]
    revert ks
    decide +revert
  · unfold enrolStatus
    rw [ok 3 (by decide) 0 (by decide) 1]
    decide

theorem witness_Calibration :
    (pageShown State.reset 0 pageCal = true ∧ pageShown State.reset 1 pageCal = false) ∧
    (let s : State := { State.reset with cal := { sel := 0x07000000 + 47 } }
     calRange (calKind s) (calIndex s) = some 6553) ∧
    (let s : State := { State.reset with cal := { sel := 0x07000000 + 48 } }
     calRange (calKind s) (calIndex s) = none) ∧
    FMap.wf {} State.reset.heat = true ∧
    -- a region of no loaded partition, and one of one, whose trim is the user's
    regionQuiesced State.reset 0 = true ∧ regionQuiesced (onePart { loadedPart with width := 1, height := 1 }) 0 = false ∧
    (let s : State := { onePart { loadedPart with width := 1, height := 1 } with heat := [(0, { trim := some (Config.factoryTrim 0 + 1) })] }
     (s.unit 0).trim.getD (Config.factoryTrim 0) ≠ Config.factoryTrim 0 ∧ regionQuiesced s 0 = false) := by
  refine ⟨by decide, by decide, by decide, by decide, by decide, by decide, ?_, by decide⟩
  intro h
  have e : ∀ b : BitVec 8, b + 1 ≠ b := by decide
  exact e _ h

/-- Tile (0, 0) read by window w; the partition it belongs to, and whether that is in quarantine or running. -/
def reading (w : Nat) (x : TwnWin) (T : Tile) (P : Partition) : State :=
  { State.reset with
    regions := [(0, { inService := true })], tiles := [(0, { T with inService := true })], parts := [(0, P)], twn := [(w, x)]
    vifs := [(3, { enabled := true, partMask := 1 })] }

theorem witness_TilesAreReadAndControlled :
    pageShown { State.reset with recovery := true } 5 pageTwn = false ∧
    (let s := reading 0 { len := 32, dataIn := 0x40 } { Tile.reset with part := some 0 } { loadedPart with rstate := 1 }
     let x := s.twnOf 0
     let T := s.tile t00
     pageShown s 0 pageTwn = true ∧ x.sel.extractLsb' 28 3 = 0 ∧ twnArgs 0 0 32 = true ∧ twnArgs 0 0 33 = false ∧ x.sel.getLsbD 31 = false ∧
     (x.sel.extractLsb' 9 9).toNat = t00.col.val ∧ (x.sel.extractLsb' 0 9).toNat = t00.row.val ∧
     (s.region (regionOf t00)).inService = true ∧ T.inService = true ∧ T.part = some 0 ∧ (s.part 0).quarantine = false ∧
     tileQuiesced s T = false ∧ min 4 (x.dataIn.extractLsb' 4 4).toNat = T.deferMax) ∧
    (let s := reading 0 { dataIn := 0x20 } { Tile.reset with part := some 0 } { loadedPart with rstate := 1 }
     min 4 ((s.twnOf 0).dataIn.extractLsb' 4 4).toNat ≠ (s.tile t00).deferMax ∧ tileQuiesced s (s.tile t00) = false) ∧
    (let s := reading 0 { len := 32 } { Tile.reset with part := some 0 } { loadedPart with quarantine := true }
     (s.tile t00).part = some 0 ∧ (s.part 0).quarantine = true ∧ (tileQuiesced s (s.tile t00) = true ∨ (0 : Nat) ≠ 3)) ∧
    (∃ k ∈ [(7 : Fin 64)], 4 * k.val < 32) ∧ (∀ k ∈ [(8 : Fin 64), 63], ¬ 4 * k.val < 32) ∧
    tileQuiesced (reading 0 {} Tile.reset {}) ((reading 0 {} Tile.reset {}).tile t00) = true ∧
    twnReach State.reset 0 = none ∧ twnArgs 1 0 32 = true := by decide

theorem witness_RegistersTakeCommands :
    pageShown State.reset 1 0 = false ∧ pageShown State.reset 0 0 = true ∧ pagePend State.reset 0 0 = false ∧
    State.reset.recovery = false ∧
    (let s := onePart { loadedPart with specShadow := some 1 }
     pageShown s 0 (pagePrt + 0) = true ∧ (s.part 0).specShadow.isSome = true ∧ (s.part 0).rstate = 0 ∧ (s.part 0).frozen = false) ∧
    -- offsets that are not aligned, and a 64-bit register
    ((0x4002 : BitVec 28).toNat % 4 ≠ 0 ∧ (0x4004 : BitVec 28).toNat % 8 ≠ 0 ∧ pageShown State.reset 0 (0x4002 / 4096) = true ∧
     (0x3040 : BitVec 28).toNat % 8 = 0 ∧ wideReg (familyOf (0x3040 / 4096)).1 (0x3040 % 4096) = true ∧ pageShown State.reset 0 (0x3040 / 4096) = true) ∧
    (0x0F : Byte).extractLsb' 0 4 = 0xF ∧ pageShown State.reset 1 ((0xFFFFFFF : BitVec 28).toNat / 4096) = false := by decide

theorem witness_CommandsKeepTheQueue : exec .sufinReset State.reset = .next { State.reset with sufinDown := true } := rfl

theorem witness_MemoriesStayCanonical : let s := { bench 0 with pending := [.sufinReset] }
    MemWf s ∧ ∃ u, step s = .next u := by
  refine ⟨⟨by decide, ?_⟩, _, rfl⟩
  intro kv h
  simp only [bench, oneTile, List.mem_cons, List.not_mem_nil, or_false] at h
  subst h
  decide

theorem witness_TileWordsDecode : (Instr.nop t00 (fC 0xF 31 31 true 0xFFFFFFFF)).tileWord =
    some (t00, (fC 0xF 31 31 true 0xFFFFFFFF).word 0) := rfl

/-! ### Words written out bit by bit from Tables 4.2 to 4.4 and 5.1 -/

theorem test_word_brc_nz : decodeWord t00 0b00000010_0001_00000_00111_00000_0_0000_00000000000000000000000000000101 =
    some (.brc t00 { sfx := 1, sd := 0, sa := 7, sb := 0, i := false, res := 0, imm := 5 }) := by decide
theorem test_word_adds : decodeWord t00 0b00001001_0000_00011_00100_00000_1_0000_11111111111111111111111111111111 =
    some (.adds t00 { sfx := 0, sd := 3, sa := 4, sb := 0, i := true, res := 0, imm := 4294967295 }) := by decide
theorem test_word_ldc : decodeWord t00 0b00010000_0000_01001_00010_00000_1_0000_00000000000000000000000001000000 =
    some (.ldc t00 { sfx := 0, sd := 9, sa := 2, sb := 0, i := true, res := 0, imm := 64 }) := by decide
theorem test_word_waita : decodeWord t00 0b00100000_0000_00000_00001_00010_0_0000_00000000000000000000000000000000 =
    some (.waita t00 { sfx := 0, sd := 0, sa := 1, sb := 2, i := false, res := 0, imm := 0 }) := by decide
theorem test_word_dload_s : decodeWord t00 0b01000000_0001_0011_0010_0000_00101_00000_000111_000000000000000000000000 =
    some (.dload t00 { sfx := 1, ad := 3, as_ := 2, at_ := 0, sx := 5, sy := 0, idx := 7, imm := 0 }) := by decide
theorem test_word_send : decodeWord t00 0b01000011_0011_0000_1111_1000_10001_00011_100001_100000000000000000000001 =
    some (.send t00 { sfx := 3, ad := 0, as_ := 15, at_ := 8, sx := 17, sy := 3, idx := 33, imm := 8388609 }) := by decide
theorem test_word_desc_f : decodeWord t00 0b01100000_0001_0100_0000_0000_00000_11111_000000_000000000000000000000000 =
    some (.desc t00 { sfx := 1, ad := 4, as_ := 0, at_ := 0, sx := 0, sy := 31, idx := 0, imm := 0 }) := by decide
theorem test_word_matv_l3_a8 : decodeWord t00 0b10000000_0101_1010_1001_1011_00000_00000_000000_000000000000000000000000 =
    some (.matv t00 { sfx := 5, ad := 10, as_ := 9, at_ := 11, sx := 0, sy := 0, idx := 0, imm := 0 }) := by decide
theorem test_word_vfma : decodeWord t00 0b10100101_0000_0001_0010_0011_00000_00000_000000_000000000000000000000100 =
    some (.vfma t00 { sfx := 0, ad := 1, as_ := 2, at_ := 3, sx := 0, sy := 0, idx := 0, imm := 4 }) := by decide
theorem test_word_sample : decodeWord t00 0b10101101_0001_0110_0111_0000_11111_11110_000000_111111111111111111111111 =
    some (.sample t00 { sfx := 1, ad := 6, as_ := 7, at_ := 0, sx := 31, sy := 30, idx := 0, imm := 16777215 }) := by decide
/-- 0x29, 0xAF and 0xFF are reserved, and so is 0x47 (R109). -/
theorem test_word_reserved : ∀ op ∈ [0x12, 0x29, 0x47, 0x64, 0x87, 0xAF, 0xC0, 0xFF], decodeWord t00 (BitVec.ofNat 64 (op * 2 ^ 56)) = none := by decide

/-! ### Ill-formed commands: one for each check of WellFormed.lean -/

theorem test_wf_spec : (Instr.specReq 0 { (default : SpecMsg) with k := 9 }).wf = false ∧
    (Instr.specProp 0 { (default : SpecMsg) with tokens := List.replicate 9 0 }).wf = false ∧
    (Instr.specEnd 0 { (default : SpecMsg) with mainRow := 65536 }).wf = false := by decide
theorem test_wf_ship : (Instr.shipMessageRx 0 { (default : ShipMsg) with destPart := 16 }).wf = false ∧
    (Instr.shipAckRx 0 { (default : ShipAck) with status := 256 }).wf = false := by decide
theorem test_wf_prompt : (Instr.promptCopyDone 0 false [1]).wf = false := by decide
theorem test_wf_files (bs : List Byte) (h : 2 ^ 32 ≤ bs.length) : (Instr.loadImage 0 { (default : ImageFile) with bytes := bs }).wf = false ∧
    (Instr.loadGen 0 ⟨bs, true⟩).wf = false ∧ (Instr.loadAdapter 0 ⟨bs, true⟩).wf = false := by
  simp [Instr.wf, ImageFile.wf, ManifestFile.wf, fits]
  omega
theorem test_wf_time : (Instr.timeCellRx 0 { timeCell 256 with port := 1 }).wf = false ∧
    (Instr.timeCellRx 0 { timeCell 1 with port := 48 }).wf = false := by decide
theorem test_wf_shard : (Instr.shardReceived 0 0 []).wf = false := by decide
theorem test_wf_conversion : (Instr.conversionDone 32768).wf = false ∧ (Instr.conversionDone (-32769)).wf = false := by decide
theorem test_wf_reading : (Instr.governorTick { (default : GovReading) with regions := [(0, default), (0, default)] }).wf = false := by decide
theorem test_wf_wear : (Instr.wearUpdate [(3, default), (3, default)]).wf = false := by decide
theorem test_wf_enrol : (Instr.enrol 0 ⟨2 :: zeros 255, true⟩).wf = false ∧ (Instr.revoke 0 ⟨1 :: zeros 255, true⟩).wf = false ∧
    (Instr.release 0 ⟨3 :: zeros 254, true⟩).wf = false ∧ (Instr.release 0 ⟨3 :: zeros 255, true⟩).wf = true := by decide +kernel
theorem test_wf_write : (Instr.registerWrite 0 0 false 0 0x10).wf = false ∧ (Instr.registerWrite 0 0 true 0 0x10).wf = true := by decide

/-! ### Worked examples of the spec -/

/-- "Worked example: quantising one block": 0x0000087D, codes that sum to 37, and the side list 0x41A0 at 3, 0xC150 at 17. -/
def workedBlock : List Nat :=
  (List.range 32).map fun i => FMap.get 0x3EA0
    [(3, 0x41A0), (5, 0x3FB0), (9, 0x3F90), (12, 0xBF80), (17, 0xC150), (20, 0x3F60), (21, 0x3F50), (25, 0xBF40), (28, 0x3F30), (30, 0x3F10)] i
def workedQuant : QBlock :=
  quantBlock { on := false, seed := 0, layer := 0, site := 0, first := 0, group := 0, ctx := [] } false false 7 0 workedBlock
theorem test_worked_block_head : workedQuant.head = 0x0000087D := by decide +kernel
theorem test_worked_block_codes : workedQuant.codes.take 22 =
    [0x11, 0x01, 0x61, 0x11, 0x41, 0x11, 0x1C, 0x11, 0x01, 0x11, 0x34, 0x11, 0xD1, 0x11, 0x13, 0x12, 0xA0, 0x41, 0x50, 0xC1, 3, 17] := by
  decide +kernel

/-- "Worked example: one A4 block into an accumulator": −1,868 × 2^35, and ACCOUT.W16 reads 0xBE6A. -/
def workedAcc : Acc := (({} : Acc).addAll { terms := [(37, -11), (-800, -12), (-416, -13)] }).1
theorem test_worked_accumulator : workedAcc = { value := BitVec.ofInt 104 (-1868 * 2 ^ 35) } := by decide +kernel
theorem test_worked_accout : ((workedAcc.readFl 7 0 .rne).1.encode 7, (workedAcc.readFl 7 0 .rne).2) = (0xBE6A, 0) := by decide +kernel

/-- The horizons of one region, of 4 × 4 regions and of the whole wafer (ch. 6). -/
theorem test_horizons : [1, 4, 12].map (fun n => ({ width := n, height := n } : Partition).horizonOf none) = [126, 456, 1336] := by
  decide +kernel

/-- "Worked example: the first exchange on a 2 m link": delay 10.12 ns, offset 3.25 ns, OFFSET_LAST 0x00034000. The peer's marker was
received at 876,216, whatever the calibrated delay of the receiver. -/
theorem test_first_exchange (H : HallUnit) (age : Int) :
    let s := linked 5 { state := 3, markers := [0] } H
    Int.ofNat H.now - age - pathDelay s 5 = 876216 →
    exchange s 5 { t1 := 0, age := age, back := some (0, 450232), depth := 1, hall := 1, port := 0 } = some (663224, 0x00034000) := by
  intro s h
  have m : markerTime s 5 { t1 := 0, age := age, back := some (0, 450232), depth := 1, hall := 1, port := 0 } = 876216 := h
  have p : (s.port 5).markers = [0] := rfl
  simp only [exchange, m, p]
  rfl

end Sys2Proof.Tests
end

/-! SUPPORT. An accumulator takes contributions in any order (R81): each adds a gain of its own, and gains commute. -/
namespace Sys2Proof.Machine

/-! ### Two accumulators together -/

/-- What two accumulators hold together: the values added, the flags joined. -/
def Acc.merge (a b : Acc) : Acc :=
  { value := a.value + b.value, hi := a.hi || b.hi, lo := a.lo || b.lo, inv := a.inv || b.inv }

theorem Acc.merge_assoc (a b c : Acc) : (a.merge b).merge c = a.merge (b.merge c) := by
  simp only [Acc.merge, BitVec.add_assoc, Bool.or_assoc]

theorem Acc.merge_comm (a b : Acc) : a.merge b = b.merge a := by
  simp only [Acc.merge, BitVec.add_comm, Bool.or_comm]

theorem Acc.merge_right_comm (a b c : Acc) : (a.merge b).merge c = (a.merge c).merge b := by
  rw [Acc.merge_assoc, Acc.merge_comm b, ← Acc.merge_assoc]

theorem Acc.merge_empty (a : Acc) : a.merge {} = a := by simp [Acc.merge]

/-! ### Functions that only add -/

/-- `f` adds to every accumulator what it leaves in an empty one: what it adds does not depend on what the accumulator holds. -/
def Acc.Gains (f : Acc → Acc) : Prop := ∀ a, f a = a.merge (f {})

theorem Acc.gains_id : Acc.Gains fun a => a := fun a => (Acc.merge_empty a).symm

theorem Acc.Gains.comp {f g : Acc → Acc} (hf : Acc.Gains f) (hg : Acc.Gains g) : Acc.Gains fun a => f (g a) := fun a =>
  calc f (g a) = (a.merge (g {})).merge (f {}) := by rw [hf (g a), hg a]
    _ = a.merge (f (g {})) := by rw [Acc.merge_assoc, ← hf (g {})]

theorem Acc.Gains.comm {f g : Acc → Acc} (hf : Acc.Gains f) (hg : Acc.Gains g) (a : Acc) : f (g a) = g (f a) :=
  calc f (g a) = (a.merge (g {})).merge (f {}) := by rw [hf (g a), hg a]
    _ = (a.merge (f {})).merge (g {}) := Acc.merge_right_comm ..
    _ = g (f a) := by rw [hg (f a), hf a]

theorem Acc.Gains.foldl {α : Type} {f : Acc → α → Acc} (h : ∀ x, Acc.Gains (f · x)) :
    ∀ xs : List α, Acc.Gains (xs.foldl f ·)
  | [] => Acc.gains_id
  | x :: xs => (Acc.Gains.foldl h xs).comp (h x)

/-! ### What the model adds to an accumulator -/

/-- The window and the exponent alone say what a contribution adds and which flags it sets (R80). -/
theorem Acc.gains_addContribution (x k kmax : Int) : Acc.Gains fun a => (a.addContribution x k kmax).1 := fun a => by
  unfold Acc.addContribution
  by_cases hx : x = 0
  · simp [hx, Acc.merge]
  · by_cases hb : kmax < k
    · by_cases hw : -48 ≤ kmax <;> simp [hx, hb, hw, Acc.merge]
    · by_cases hw : -48 ≤ k <;> simp [hx, hb, hw, Acc.merge]

theorem Acc.gains_joinInv (i : Bool) : Acc.Gains fun a => { a with inv := a.inv || i } := fun a => by simp [Acc.merge]

theorem Acc.gains_setInv : Acc.Gains fun a => { a with inv := true } := fun a => by simp [Acc.merge]

theorem Acc.addAll_fst (a : Acc) (c : Contribs) :
    (a.addAll c).1 = c.terms.foldl (fun b t => (b.addContribution t.1 t.2 35).1) { a with inv := a.inv || c.inv } :=
  (List.foldl_hom Prod.fst fun _ _ => rfl).symm

theorem Acc.gains_addAll (c : Contribs) : Acc.Gains fun a => (a.addAll c).1 := by
  simp only [Acc.addAll_fst]
  exact (Acc.Gains.foldl (fun t => Acc.gains_addContribution t.1 t.2 35) c.terms).comp (Acc.gains_joinInv c.inv)

theorem Acc.gains_addValue (p : Nat) : ∀ v : Fl, Acc.Gains fun a => (a.addValue p v).1
  | .zero _ => Acc.gains_id
  | .fin _ _ _ => Acc.gains_addContribution _ _ _
  | .nan => Acc.gains_setInv
  | .inf _ => Acc.gains_setInv

theorem Acc.gains_addImage (bs : List Byte) : Acc.Gains fun a => (a.addImage bs).1 := fun a => by
  simp only [Acc.addImage]
  split
  · exact (Acc.merge_empty a).symm
  · simp [Acc.merge]

theorem AccStep.gains_addTo : ∀ c : AccStep, Acc.Gains (AccStep.addTo · c)
  | .row c => Acc.gains_addAll c
  | .value p v => Acc.gains_addValue p v
  | .image bs => Acc.gains_addImage bs

/-- Settles O22: whatever is added, in the row engine or the vector unit, is a gain, and two gains commute. -/
theorem accumulatorsForgetOrder : Obligations.AccumulatorsForgetOrder := by
  intro a cs ds h
  exact h.foldl_eq' (fun x _ y _ b => (AccStep.gains_addTo y).comm (AccStep.gains_addTo x) b) a

end Sys2Proof.Machine

/-! SUPPORT. Where the ends of two ranges cross and no unit lies in both: an empty range inside another one. -/
namespace Sys2Proof.Machine

/-- Refutes O4: `overlaps` compares the ends alone, and those of the empty range at unit 1 of the scratchpad lie strictly inside
units 0 and 1, although no unit is in it. Only an empty range, which R48 refuses, tells the two apart: for others, and for the
clauses on stalls and the latch, the statement says what the model does. -/
theorem not_rangeStallMeansOverlap : ¬ Obligations.RangeStallMeansOverlap := by
  rintro ⟨-, hOverlaps, -⟩
  let empty : Range := { space := 0, len := 0, base := 1 }
  let around : Range := { space := 0, len := 2, base := 0 }
  have hEnds : empty.overlaps around = true := by decide
  obtain ⟨-, n, ⟨hlo, hhi⟩, -⟩ := (hOverlaps empty around).mp hEnds
  exact absurd hhi (Nat.not_lt.mpr hlo)

end Sys2Proof.Machine

/-! SUPPORT. The scalar instructions and MOVS: one register written, on the tile as it was issued. -/
namespace Sys2Proof.Machine

section
variable {s : State} {t : TileAddr} {w : DWord} {f : FmtC} {p : IssueSpec} {i : Instr}

/-! ### Register reads and writes beside an issue -/

@[simp] theorem Tile.setSreg_ctr (T : Tile) (n : Nat) (v : Word) : (T.setSreg n v).ctr = T.ctr := by
  rw [Tile.setSreg_frame]

@[simp] theorem Tile.setAreg_ctr (T : Tile) (n : Nat) (r : Range) : (T.setAreg n r).ctr = T.ctr := rfl

@[simp] theorem issuedOver_sreg (T B : Tile) (e : Bool) (n : Nat) : (issuedOver T e p B).sreg n = B.sreg n := rfl

@[simp] theorem issuedOver_areg (T B : Tile) (e : Bool) (n : Nat) : (issuedOver T e p B).areg n = B.areg n := rfl

@[simp] theorem src2_issuedOver (T B : Tile) (e : Bool) : src2 (issuedOver T e p B) f = src2 B f := rfl

@[simp] theorem issuedOver_setSreg (T B : Tile) (e : Bool) (n : Nat) (v : Word) :
    (issuedOver T e p B).setSreg n v = issuedOver T e p (B.setSreg n v) := by
  unfold Tile.setSreg; split <;> rfl

@[simp] theorem issuedOver_setAreg (T B : Tile) (e : Bool) (n : Nat) (r : Range) :
    (issuedOver T e p B).setAreg n r = issuedOver T e p (B.setAreg n r) := rfl

/-- An instruction that takes no scoreboard entry, and whose change of its tile neither reads nor writes what an issue sets, issues
as the tile changed. -/
theorem runs_change {g : Tile → Tile} (h : Runs s t w p) (he : p.entry = none)
    (hi : exec i s = .next (seqStep s t w p fun s => s.mapTile t g))
    (hg : ∀ T e, g (issuedOver T e p T) = issuedOver T e p (g T)) (hc : ∀ T, (g T).ctr = T.ctr) :
    ∃ u, exec i s = .next u ∧ OnlyTile t s u ∧ Moved p (s.tile t) (g (s.tile t)) (u.tile t) :=
  ⟨_, hi, runs_mapTile h (by rw [entered, he]) (hg ..) (hc _)⟩

/-! ### SETS, and the two-operand scalar instructions (R131) -/

/-- SETS writes the immediate, by its suffix into a scalar or as a range. -/
theorem sets_runs (h : Runs s t (f.word 0x08) {}) :
    ∃ u, exec (.sets t f) s = .next u ∧ OnlyTile t s u ∧ Moved {} (s.tile t)
      (if f.sfx = 0 then (s.tile t).setSreg f.sd.toNat f.imm else (s.tile t).setAreg f.sd.toNat (setsRange f.imm)) (u.tile t) :=
  runs_change (g := fun T => if f.sfx = 0 then T.setSreg f.sd.toNat f.imm else T.setAreg f.sd.toNat (setsRange f.imm)) h rfl rfl
    (fun _ _ => by split <;> simp) (fun _ => by split <;> simp)

/-- ADDS to CMPS write what their operation makes of s[sa] and src2. -/
theorem alu_runs (g : Word → Word → Word) (h : Runs s t w (specAlu f))
    (hi : exec i s = .next (seqStep s t w (specAlu f) (effAlu t f g))) :
    ∃ u, exec i s = .next u ∧ OnlyTile t s u ∧ Moved (specAlu f) (s.tile t)
      ((s.tile t).setSreg f.sd.toNat (g ((s.tile t).sreg f.sa.toNat) (src2 (s.tile t) f))) (u.tile t) :=
  runs_change h rfl hi (by simp) (by simp)

/-- SHLS shifts by src2[4:0]. -/
theorem shiftBy_eq (k : BitVec 4) (a b : Word) :
    (k = 0 → shiftBy k a b = a <<< (b.extractLsb' 0 5).toNat) ∧ (k = 1 → shiftBy k a b = a >>> (b.extractLsb' 0 5).toNat) ∧
    (k = 2 → shiftBy k a b = a.sshiftRight (b.extractLsb' 0 5).toNat) := by
  refine ⟨?_, ?_, ?_⟩ <;> rintro rfl <;> simp [shiftBy]

/-- CMPS compares as equal, as signed and as unsigned words. -/
theorem compareBy_iff (k : BitVec 4) (a b : Word) :
    (k = 0 → (compareBy k a b = true ↔ a = b)) ∧ (k = 1 → (compareBy k a b = true ↔ a ≠ b)) ∧
    (k = 2 → (compareBy k a b = true ↔ a.toInt < b.toInt)) ∧ (k = 3 → (compareBy k a b = true ↔ b.toInt ≤ a.toInt)) ∧
    (k = 4 → (compareBy k a b = true ↔ a.toNat < b.toNat)) ∧ (k = 5 → (compareBy k a b = true ↔ b.toNat ≤ a.toNat)) := by
  refine ⟨?_, ?_, ?_, ?_, ?_, ?_⟩ <;> rintro rfl <;> simp [compareBy, BitVec.slt, BitVec.ult]

/-! ### MOVS (R132) -/

@[simp] theorem movsTile_ctr (T : Tile) : (movsTile f T).ctr = T.ctr := by
  unfold movsTile; split <;> simp

/-- MOVS reads and writes registers alone. -/
@[simp] theorem movsTile_issuedOver (T B : Tile) (e : Bool) :
    movsTile f (issuedOver T e p B) = issuedOver T e p (movsTile f B) := by
  unfold movsTile; split <;> simp

theorem movs_runs (h : Runs s t (f.word 0x0F) (specMovs f)) :
    ∃ u, exec (.movs t f) s = .next u ∧ OnlyTile t s u ∧ Moved (specMovs f) (s.tile t) (movsTile f (s.tile t)) (u.tile t) :=
  runs_change h rfl rfl (by simp) (by simp)

end

/-- Settles O6: each instruction issues as its tile with one register written; which value, and for MOVS which register, its suffix
says. -/
theorem scalarsAndRegisters : Obligations.ScalarsAndRegisters := by
  refine ⟨⟨fun s t f => ⟨?setScalar, ?setRange, ?adds, ?subs, ?ands, ?ors⟩, fun s t f => ⟨?shls, ?cmps⟩⟩, fun s t f h => ?movs⟩
  case setScalar =>
    intro h k
    have hSets := sets_runs h
    rwa [if_pos k] at hSets
  case setRange =>
    intro h k
    have hSets := sets_runs h
    rwa [if_neg (by simp [k])] at hSets
  case adds => exact fun h => alu_runs (· + ·) h rfl
  case subs => exact fun h => alu_runs (· - ·) h rfl
  case ands => exact fun h => alu_runs (· &&& ·) h rfl
  case ors => exact fun h => alu_runs (· ||| ·) h rfl
  case shls =>
    intro h
    obtain ⟨u, hu, hOnly, hMoved⟩ := alu_runs (i := .shls t f) (shiftBy f.sfx) h rfl
    exact ⟨u, hu, hOnly, _, hMoved, shiftBy_eq ..⟩
  case cmps =>
    intro h
    obtain ⟨u, hu, hOnly, hMoved⟩ := alu_runs (i := .cmps t f) (fun a b => if compareBy f.sfx a b then 1 else 0) h rfl
    obtain ⟨eq, ne, lt, ge, ltu, geu⟩ := compareBy_iff f.sfx ((s.tile t).sreg f.sa.toNat) (src2 (s.tile t) f)
    exact ⟨u, hu, hOnly, _, hMoved, fun k => by simp only [eq k], fun k => by simp only [ne k], fun k => by simp only [lt k],
      fun k => by simp only [ge k], fun k => by simp only [ltu k], fun k => by simp only [geu k]⟩
  case movs =>
    obtain ⟨u, hu, hOnly, hMoved⟩ := movs_runs h
    refine ⟨u, hu, hOnly, _, hMoved, ?_, ?_, ?_, ?_, ?_, ?_, ?_, ?_⟩ <;> intro k <;> simp [movsTile, k]

end Sys2Proof.Machine

/-! SUPPORT. One group of the vector unit (R161): what the group writes is all that its tile gains in the scratchpad and the
accumulators, and the elements it writes read back. -/
namespace Sys2Proof.Machine

/-! ### Little-endian values and runs of bytes (R8) -/

@[simp] theorem length_bytesLE (n v : Nat) : (bytesLE n v).length = n := by simp [bytesLE]

theorem bytesLE_succ (n v : Nat) : bytesLE (n + 1) v = BitVec.ofNat 8 v :: bytesLE n (v / 256) := by
  simp only [bytesLE, List.range_succ_eq_map, List.map_cons, List.map_map]
  congr 1
  refine List.map_congr_left fun i _ => ?_
  simp only [Function.comp_apply, Nat.mul_succ, Nat.add_comm (8 * i), Nat.shiftRight_add]
  rw [Nat.shiftRight_eq_div_pow v 8]

theorem natLE_bytesLE (n v : Nat) : natLE (bytesLE n v) = v % 256 ^ n := by
  induction n generalizing v with
  | zero => simp [bytesLE, natLE, Nat.mod_one]
  | succ n ih =>
    rw [bytesLE_succ, natLE, ih, BitVec.toNat_ofNat, Nat.pow_succ' (m := 256), Nat.mod_mul]

theorem Mem.getD_read (m : Mem) {a n i : Nat} (h : i < n) : (m.read a n).getD i 0 = m.get (a + i) := by
  simp [Mem.read_eq, h]

/-- Bytes read inside a run of bytes just stored are that part of the run. -/
theorem Mem.read_write (m : Mem) {a off n : Nat} {bs : List Byte} (h : off + n ≤ bs.length) :
    (m.write a bs).read (a + off) n = (bs.drop off).take n := by
  refine List.ext_getElem (by simp [Mem.length_read]; omega) fun i hi _ => ?_
  have hn : i < n := by simpa [Mem.length_read] using hi
  have hin : a ≤ a + off + i ∧ a + off + i < a + bs.length := by omega
  have hat : a + off + i - a = off + i := by omega
  simp [Mem.read_eq, hin, hat, List.getElem?_eq_getElem (show off + i < bs.length by omega)]

theorem length_flatMap_blocks {α : Type} {f : α → List Byte} {n : Nat} (hf : ∀ x, (f x).length = n) (l : List α) :
    (l.flatMap f).length = n * l.length := by
  simp only [List.length_flatMap, hf, List.map_const', List.sum_replicate_nat, Nat.mul_comm]

/-- Blocks of `n` bytes each, laid end to end, are found at multiples of `n`. -/
theorem flatMap_block {α : Type} {f : α → List Byte} {n : Nat} (hf : ∀ x, (f x).length = n) {l : List α} {i : Nat}
    (h : i < l.length) : ((l.flatMap f).drop (n * i)).take n = f l[i] := by
  induction l generalizing i with
  | nil => simp at h
  | cons x l ih =>
    cases i with
    | zero => simp [← hf x]
    | succ i =>
      rw [List.flatMap_cons, Nat.mul_succ, Nat.add_comm, ← List.drop_drop, ← hf x, List.drop_left, hf x]
      exact ih (by simpa using h)

/-! ### The elements that a group writes -/

@[simp] theorem length_groupIdx (n g : Nat) : (groupIdx n g).length = min 64 (n - 64 * g) := by simp [groupIdx]

theorem mem_groupIdx {n g j : Nat} : j ∈ groupIdx n g ↔ 64 * g ≤ j ∧ j < 64 * g + min 64 (n - 64 * g) := List.mem_range'_1

/-- The units of a range that its group `g` takes. -/
theorem mem_groupIdx_shifted {a n g k : Nat} : k ∈ (groupIdx n g).map (a + ·) ↔ a + 64 * g ≤ k ∧ k < a + 64 * g + min 64 (n - 64 * g) := by
  simp only [List.mem_map, mem_groupIdx]
  exact ⟨fun ⟨j, hj, e⟩ => by omega, fun h => ⟨k - a, by omega, by omega⟩⟩

section
variable {T U : Tile} {d : Range} {size n g : Nat} {val : Nat → Nat × BitVec 4}

theorem elemAt_congr (h : U.pad = T.pad) (r : Range) (size j : Nat) : elemAt U r size j = elemAt T r size j := by
  simp only [elemAt, Tile.padNat, Tile.padBytes, h]

/-- The bytes that a group writes, element after element. -/
def groupBytes (size n g : Nat) (val : Nat → Nat × BitVec 4) : List Byte := ((groupIdx n g).map val).flatMap fun v => bytesLE size v.1

theorem writeGroup_pad : (writeGroup T d size n g val).1.pad = T.pad.write (32 * d.lo + size * 64 * g) (groupBytes size n g val) := rfl

theorem writeGroup_accs : (writeGroup T d size n g val).1.accs = T.accs := rfl

theorem length_groupBytes : (groupBytes size n g val).length = size * min 64 (n - 64 * g) := by
  simp [groupBytes, length_flatMap_blocks (fun _ => length_bytesLE size _)]

/-- An element of the group reads back as the value written, cut to its size. -/
theorem elemAt_writeGroup {j : Nat} (h : j ∈ groupIdx n g) :
    elemAt (writeGroup T d size n g val).1 d size j = (val j).1 % 256 ^ size := by
  obtain ⟨i, rfl⟩ := Nat.exists_eq_add_of_le (mem_groupIdx.mp h).1
  have hi : i < min 64 (n - 64 * g) := by have := (mem_groupIdx.mp h).2; omega
  have hat : 32 * d.lo + size * (64 * g + i) = 32 * d.lo + size * 64 * g + size * i := by
    rw [Nat.mul_add, Nat.mul_assoc, Nat.add_assoc]
  have hfit : size * i + size ≤ (groupBytes size n g val).length := by
    rw [length_groupBytes, ← Nat.mul_succ]
    exact Nat.mul_le_mul_left size hi
  rw [elemAt, Tile.padNat, Tile.padBytes, writeGroup_pad, hat, Mem.read_write _ hfit, groupBytes,
    flatMap_block (fun _ => length_bytesLE size _) (by simpa using hi), natLE_bytesLE]
  simp [groupIdx]

theorem padOutside_writeGroup :
    PadOutside (32 * d.lo + size * 64 * g) (size * min 64 (n - 64 * g)) T (writeGroup T d size n g val).1 := fun k hk => by
  rw [writeGroup_pad, Mem.get_write, length_groupBytes, if_neg hk]

/-- A group none of whose elements raises an event raises none. -/
theorem writeGroup_quiet (h : ∀ j, (val j).2 = 0) : (writeGroup T d size n g val).2 = 0 := by
  have hfold : ∀ l : List (Nat × BitVec 4), (∀ v ∈ l, v.2 = 0) → l.foldl (fun e v => e ||| v.2) 0 = 0 := by
    intro l hl
    induction l with
    | nil => rfl
    | cons v l ih => simpa [hl v] using ih fun w hw => hl w (by simp [hw])
  exact hfold _ (by simp [h])

end

/-! ### Accumulators zeroed (R173) -/

theorem zeroAccs_acc (T : Tile) (ns : List Nat) (n : Nat) : (zeroAccs T ns).acc n = if n ∈ ns then {} else T.acc n := by
  induction ns generalizing T with
  | nil => simp [zeroAccs]
  | cons m ns ih =>
    refine (ih (T.setAcc m {})).trans ?_
    by_cases hm : n = m <;> simp [hm]

theorem zeroAccs_pad (T : Tile) (ns : List Nat) : (zeroAccs T ns).pad = T.pad := by
  induction ns generalizing T with
  | nil => rfl
  | cons m ns ih => exact ih (T.setAcc m {})

/-! ### What the groups of COPY, ACCZ and VADD.I32 do -/

section
variable {s : State} {t : TileAddr} {o : AOp} {T : Tile}

theorem vecGroup_copy (h : o.op = opCopy) : vecGroup s t o T =
    (T.setPad o.d.lo (256 * o.done) (T.padBytes o.a.lo (256 * o.done) (min 256 (32 * o.a.n - 256 * o.done))), 0) := by
  simp only [vecGroup, if_pos h]

theorem vecGroup_accz (h : o.op = opAccz) : vecGroup s t o T = (zeroAccs T ((groupIdx o.d.n o.done).map (o.d.lo + ·)), 0) := by
  simp [vecGroup, h, acczGroup, opAccz, opCopy]

/-- INT32 lanes are added modulo 2^32 and raise nothing (R77, R179). -/
theorem lane_addI32 (bit3 : Bool) (a b d : Nat) : lane opVadd 2 bit3 a b d = ((a + b) % 2 ^ 32, 0) := by
  simp [lane, intLane, opVadd, opVsel]

theorem vecGroup_addI32 (h : o.op = opVadd) (hsfx : o.f.sfx = 2) : vecGroup s t o T =
    writeGroup T o.d 4 (8 * o.d.n) o.done fun j => ((elemAt T o.a 4 j + elemAt T o.b 4 j) % 2 ^ 32, 0) := by
  have hfmt : o.fmt = 2 := by simp [AOp.fmt, hsfx]
  have hbc : o.sfxBit 2 = false := by simp [AOp.sfxBit, hsfx]
  have helems : o.d.elems 4 = 8 * o.d.n := by simp only [Range.elems]; omega
  have hgroup : vecGroup s t o T = elementGroup o o.done T := by
    simp [vecGroup, h, opVadd, opCopy, opAccz, opAccout, opQact, opCvt, opVsumx, opSmax, opPlat, opTopk, opVmax, opVexp, opVrcp, opVrsq]
  simp [hgroup, elementGroup, hfmt, hbc, fmtSize, helems, h, lane_addI32]

end

/-! ### The command that completes a group -/

theorem Tile.count_fold_frame {n : Nat} (off : Fin n → Nat) (l : List (Fin n)) (T : Tile) :
    ∃ c, l.foldl (fun T i => T.count (off i) 1) T = { T with ctr := c } := by
  induction l generalizing T with
  | nil => exact ⟨_, rfl⟩
  | cons i l ih => exact ih (T.count (off i) 1)

/-- What an access met is counted in the tile's counters alone (R206). -/
theorem Tile.noted_frame (T : Tile) (b : BankNote) : ∃ c, T.noted b = { T with ctr := c } := by
  obtain ⟨c, hc⟩ := Tile.count_fold_frame (fun n => ctrBankWait n.val) b.waits T
  simp only [Tile.noted, hc]
  split
  · exact ⟨c, rfl⟩
  · exact ⟨_, rfl⟩

theorem State.noted_tile_of_ne (s : State) (b : BankNote) {t v : TileAddr} (h : v ≠ t) : (s.noted t b).tile v = s.tile v := by
  unfold State.noted; split <;> simp [h]

theorem State.noted_tile_self (s : State) (t : TileAddr) (b : BankNote) : ∃ c, (s.noted t b).tile t = { s.tile t with ctr := c } := by
  unfold State.noted
  split
  · exact ⟨_, rfl⟩
  · simpa using Tile.noted_frame (s.tile t) b

/-- No event, nothing raised. -/
@[simp] theorem raiseArith_none (s : State) (t : TileAddr) (old : BitVec 4) : raiseArith s t old 0 = s := rfl

section
variable {s : State} {t : TileAddr} {b : BankNote} {o : AOp} {q : List AOp}

/-- A quiet group of the instruction in front, other than of SMAX or SAMPLE, leaves in the scratchpad and the accumulators what
`vecGroup` computes from the tile, whatever is counted, and no other tile changes. -/
theorem groupDone_quiet {T : Tile} (hT : s.tile t = T) (hq : T.vecQ = o :: q) (hmax : o.op ≠ opSmax) (hsample : o.op ≠ opSample)
    (hquiet : (vecGroup s t o T).2 = 0) :
    (∀ v, v ≠ t → (groupDone s t).tile v = s.tile v) ∧ ((groupDone s t).tile t).pad = (vecGroup s t o T).1.pad ∧
      ((groupDone s t).tile t).accs = (vecGroup s t o T).1.accs := by
  have hprimed : o.primed T = o := by simp [AOp.primed, hmax]
  simp only [groupDone, hT, hq, hprimed, if_neg hsample, hquiet, raiseArith_none, State.setTile_tile, if_true]
  refine ⟨fun v hv => if_neg hv, ?_, ?_⟩ <;> split <;> rfl

theorem vectorGroupDone_quiet (hq : (s.tile t).vecQ = o :: q) (hOrder : (s.tile t).inOrder o.id = true)
    (hFree : held s t = false ∨ o.begun = true) (hmax : o.op ≠ opSmax) (hsample : o.op ≠ opSample)
    (hquiet : ∀ s T, (vecGroup s t o T).2 = 0) :
    ∃ u s' c, exec (.vectorGroupDone ⟨t, b⟩) s = .next u ∧ (∀ v, v ≠ t → u.tile v = s.tile v) ∧
      (u.tile t).pad = (vecGroup s' t o { s.tile t with ctr := c }).1.pad ∧
      (u.tile t).accs = (vecGroup s' t o { s.tile t with ctr := c }).1.accs := by
  obtain ⟨c, hc⟩ := s.noted_tile_self t b
  have hready : (s.tile t).vecReady (held s t) = true := by
    rcases hFree with h | h <;> simp [Tile.vecReady, hq, hOrder, h]
  have hexec : exec (.vectorGroupDone ⟨t, b⟩) s = .next (groupDone (s.noted t b) t) := by
    change execVectorGroupDone ⟨t, b⟩ s = _
    simp only [execVectorGroupDone, if_pos hready]
  obtain ⟨hOthers, hPad, hAccs⟩ := groupDone_quiet hc (o := o) (q := q) hq hmax hsample (hquiet _ _)
  exact ⟨_, s.noted t b, c, hexec, fun v hv => (hOthers v hv).trans (s.noted_tile_of_ne b hv), hPad, hAccs⟩

end

/-- Settles O24: each group's own equation, carried to the state after the command by `vectorGroupDone_quiet`. -/
theorem vectorGroupsWriteTheirElements : Obligations.VectorGroupsWriteTheirElements := by
  refine ⟨fun _ _ => ⟨rfl, rfl⟩, fun s t b o q hq hOrder hFree => ⟨fun hop => ?copy, fun hop => ?accz, fun hop hsfx => ?add⟩⟩
  case copy =>
    obtain ⟨u, s', c, hu, hOthers, hPad, hAccs⟩ := vectorGroupDone_quiet (b := b) hq hOrder hFree (by simp [hop, opSmax])
      (by simp [hop, opSample]) fun _ _ => by rw [vecGroup_copy hop]
    rw [vecGroup_copy hop] at hPad hAccs
    refine ⟨u, hu, hOthers, hAccs, fun k => ?_⟩
    simp only [hPad, Tile.setPad, Tile.padBytes, Mem.get_write, Mem.length_read]
    split
    · next hk => rw [Mem.getD_read _ (by omega)]; congr 1; omega
    · rfl
  case accz =>
    obtain ⟨u, s', c, hu, hOthers, hPad, hAccs⟩ := vectorGroupDone_quiet (b := b) hq hOrder hFree (by simp [hop, opSmax])
      (by simp [hop, opSample]) fun _ _ => by rw [vecGroup_accz hop]
    rw [vecGroup_accz hop] at hPad hAccs
    refine ⟨u, hu, hOthers, hPad.trans (zeroAccs_pad ..), fun n => ?_⟩
    have hacc := zeroAccs_acc { s.tile t with ctr := c } ((groupIdx o.d.n o.done).map (o.d.lo + ·)) n
    simp only [mem_groupIdx_shifted] at hacc
    rw [Tile.acc, hAccs]
    exact hacc
  case add =>
    obtain ⟨u, s', c, hu, hOthers, hPad, hAccs⟩ := vectorGroupDone_quiet (b := b) hq hOrder hFree (by simp [hop, opSmax])
      (by simp [hop, opSample]) fun _ _ => by rw [vecGroup_addI32 hop hsfx]; exact writeGroup_quiet fun _ => rfl
    rw [vecGroup_addI32 hop hsfx] at hPad hAccs
    refine ⟨u, hu, hOthers, hAccs, fun j hlo hhi => ?_, fun k hk => ?_⟩
    · rw [elemAt_congr hPad, elemAt_writeGroup (mem_groupIdx.mpr ⟨hlo, hhi⟩)]
      exact Nat.mod_mod _ _
    · rw [hPad]
      exact padOutside_writeGroup k hk

end Sys2Proof.Machine

/-! SUPPORT. The route of a flit (R224, R225): the default route is a port of its own, and its neighbour lies one hop nearer. -/
namespace Sys2Proof.Machine

/-! ### The default route: along the row, then along the column -/

/-- The port by which the default route leaves `t` for another tile `d` (R225). -/
def xyPort (t d : TileAddr) : Port :=
  if t.col ≠ d.col then (if t.col < d.col then .east else .west) else if t.row < d.row then .north else .south

/-- How many hops lie between two tiles: the columns and the rows they are apart. -/
def hopDistance (t d : TileAddr) : Nat :=
  Int.natAbs ((t.col.val : Int) - d.col.val) + Int.natAbs ((t.row.val : Int) - d.row.val)

section
variable {t d : TileAddr}

theorem TileAddr.eq_of_col_of_row (hc : t.col = d.col) (hr : t.row = d.row) : t = d := by
  cases t
  cases d
  cases hc
  cases hr
  rfl

theorem xyPort_east (h : t.col < d.col) : xyPort t d = .east := by
  rw [xyPort, if_pos (Fin.ne_of_lt h), if_pos h]

theorem xyPort_west (h : d.col < t.col) : xyPort t d = .west := by
  rw [xyPort, if_pos (Fin.ne_of_gt h), if_neg (Fin.lt_asymm h)]

theorem xyPort_north (hc : t.col = d.col) (h : t.row < d.row) : xyPort t d = .north := by
  rw [xyPort, if_neg (not_not_intro hc), if_pos h]

theorem xyPort_south (hc : t.col = d.col) (h : d.row < t.row) : xyPort t d = .south := by
  rw [xyPort, if_neg (not_not_intro hc), if_neg (Fin.lt_asymm h)]

/-- The tile `d` itself lies on the side that `xyPort` names, so the wafer does not end there. -/
theorem neighbour_xyPort_nearer (h : t ≠ d) :
    ∃ v, neighbour t (xyPort t d) = some v ∧ hopDistance v d + 1 = hopDistance t d := by
  rcases Nat.lt_trichotomy t.col.val d.col.val with hcol | hcol | hcol
  · have hin : t.col.val + 1 < 336 := by omega
    exact ⟨⟨⟨_, hin⟩, t.row⟩, by rw [xyPort_east hcol]; exact dif_pos hin, by simp only [hopDistance]; omega⟩
  · have hcol : t.col = d.col := Fin.ext hcol
    have hne : t.row ≠ d.row := fun hrow => h (TileAddr.eq_of_col_of_row hcol hrow)
    rcases Nat.lt_or_gt_of_ne (Fin.val_ne_of_ne hne) with hrow | hrow
    · have hin : t.row.val + 1 < 324 := by omega
      exact ⟨⟨t.col, ⟨_, hin⟩⟩, by rw [xyPort_north hcol hrow]; exact dif_pos hin, by simp only [hopDistance]; omega⟩
    · have hpos : t.row.val ≠ 0 := by omega
      exact ⟨⟨t.col, ⟨t.row.val - 1, by omega⟩⟩, by rw [xyPort_south hcol hrow]; exact if_neg hpos,
        by simp only [hopDistance]; omega⟩
  · have hpos : t.col.val ≠ 0 := by omega
    exact ⟨⟨⟨t.col.val - 1, by omega⟩, t.row⟩, by rw [xyPort_west hcol]; exact if_neg hpos, by simp only [hopDistance]; omega⟩

end

/-! ### The route by the entry of the destination's region (Table 7.1) -/

section
variable {s : State} {t : TileAddr} {f : Flit} {e : BitVec 3}

theorem route_at_dst (h : t = f.dst) : route s t f = if f.rim then .rim else .out .loc := if_pos h

theorem route_of_codePort {p : Port} (h : t ≠ f.dst)
    (he : FMap.get 0 (s.region (regionOf t)).routes (regionOf f.dst) = e) (hp : codePort e.toNat = some p) :
    route s t f = .out p := by
  have hkept : e.toNat ≠ 5 := fun h5 => by rw [h5] at hp; exact nomatch hp
  simp only [route, if_neg h, he, if_neg hkept, hp]

theorem route_lost (h : t ≠ f.dst) (he : FMap.get 0 (s.region (regionOf t)).routes (regionOf f.dst) = 5) :
    route s t f = .lost := by
  simp only [route, if_neg h, he]
  rfl

theorem route_xy (h : t ≠ f.dst) (he : FMap.get 0 (s.region (regionOf t)).routes (regionOf f.dst) = 0) :
    route s t f = .out (xyPort t f.dst) := by
  have hkept : (0 : BitVec 3).toNat ≠ 5 := by decide
  have hfree : codePort (0 : BitVec 3).toNat = none := rfl
  simp only [route, if_neg h, he, if_neg hkept, hfree, xyPort]
  split <;> rfl

end

/-- Settles O27: the route by each entry, and the hop of the default route by `neighbour_xyPort_nearer`. -/
theorem routesArrive : Obligations.RoutesArrive := by
  refine ⟨fun s t f => ⟨route_at_dst, fun h he => ?xy, fun k o hk h he => ?code, route_lost⟩, fun s t f h he => ?nearer⟩
  case xy =>
    rw [route_xy h he]
    exact ⟨fun hc => by rw [xyPort_east hc], fun hc => by rw [xyPort_west hc],
      fun hc hr => by rw [xyPort_north hc hr], fun hc hr => by rw [xyPort_south hc hr]⟩
  case code =>
    refine route_of_codePort h he ?_
    simp only [List.mem_cons, Prod.mk.injEq, List.not_mem_nil, or_false] at hk
    rcases hk with ⟨rfl, rfl⟩ | ⟨rfl, rfl⟩ | ⟨rfl, rfl⟩ | ⟨rfl, rfl⟩ <;> rfl
  case nearer =>
    obtain ⟨v, hv, hnear⟩ := neighbour_xyPort_nearer h
    exact ⟨xyPort t f.dst, v, route_xy h he, hv, hnear⟩

end Sys2Proof.Machine
